-- ==== Sys2Proof/Word.lean ====
section
/-! DEFINITION. Words, bytes and byte strings of DRBG-CTL (00_scope.md R9, R13) and their plainest arithmetic. -/

namespace Sys2Proof

/-- One byte of a byte string (R9). -/
abbrev Byte := BitVec 8

/-- One 32-bit register value or bus word (R70). -/
abbrev Word := BitVec 32

/-- A byte string, first byte first (R9). -/
abbrev ByteString := List Byte

/-- `ceil(a / b)` of R10, for `b ≥ 1`. -/
def ceilDiv (a b : Nat) : Nat := (a + b - 1) / b

/-- `zeros(n)` of R10: `n` bytes 0x00. -/
def zeros (n : Nat) : ByteString := List.replicate n 0x00#8

/-- `ones01(n)` of R10: `n` bytes 0x01. -/
def ones01 (n : Nat) : ByteString := List.replicate n 0x01#8

end Sys2Proof
end

