-- ==== Sys2Proof/Config.lean ====
section
/-! DEFINITION. What the platform fixes before reset is released (00_scope.md R6, 70_reset_and_hazards.md R272): the static
configuration inputs, as plain data; and, as constants without a body, the three external primitives and the values that the spec
leaves open. -/

namespace Sys2Proof

/-- The static configuration inputs of R6. They are inputs of the block, never changed by it (R272, step 1). -/
structure Config where
  /-- Which hash `H` the platform connects (R6, R61): a name, which `Config.hashPort` interprets (log 4). -/
  hashPrim : Nat
  /-- `HLEN`, bytes (R61). A length, in a legal configuration a 32-bit number (R13). -/
  hlen : Nat
  /-- `H_MAX_STRENGTH`, bits (R61, R123). -/
  hMaxStrength : Nat
  /-- `SEEDLEN`, bits (R8). -/
  seedlen : Nat
  /-- Which keyed MAC `M` the platform connects (R6, R62): a name, which `Config.macPort` interprets (log 4). -/
  macPrim : Nat
  /-- `MLEN`, bytes (R62). -/
  mlen : Nat
  /-- `M_MAX_STRENGTH`, bits (R62, R123). -/
  mMaxStrength : Nat
  /-- Which block cipher `E` the platform connects (R6, R63): a name, which `Config.cipherPort` interprets (log 4). -/
  cipherPrim : Nat
  /-- `BLEN`, bytes (R63). -/
  blen : Nat
  /-- `KLEN`, bytes (R63). -/
  klen : Nat
  /-- `C_IS_TDEA`: the cipher is 3-key triple-DES (R63). -/
  cIsTdea : Bool
  /-- `C_MAX_STRENGTH`, bits (R63, R123). -/
  cMaxStrength : Nat
  /-- `MECH_MAX_STRENGTH`, bits, one number for the three mechanisms (R6, R122; DEDUCED, log 17, unsafe). -/
  mechMaxStrength : Nat
  /-- `ENT_SIZE_BITS`: the static 32-bit input `ent_size_bits` (R60). -/
  entSizeBits : Word
  /-- `ENT_MAX_BYTES`, a length (R13, R60). -/
  entMaxBytes : Nat
  /-- `MAX_STR_BYTES`, a length (R13, R50). -/
  maxStrBytes : Nat
  /-- `FATAL_STICKY` (R243). -/
  fatalSticky : Bool
  /-- `DRBG_BASE`: the block's place in the platform's address map (R71). -/
  drbgBase : Nat
  deriving DecidableEq, Repr

/-- `SL = KLEN + BLEN`: the CTR seed length in bytes (44_ctr_drbg.md, header). -/
def Config.sl (c : Config) : Nat := c.klen + c.blen

/-- The configuration that `State.reset` carries: the spec's defaults (R6: MECH_MAX_STRENGTH, ENT_MAX_BYTES, MAX_STR_BYTES,
FATAL_STICKY) and, where R6 gives no default, the lengths and strengths of 95_test_vectors.md's Hash, HMAC and AES-128
configs; the primitives have the name 0. DESIGN CHOICE, unsafe for a statement about `State.reset` that reads one of them (log 3). -/
def Config.initial : Config where
  hashPrim := 0
  hlen := 32
  hMaxStrength := 256
  seedlen := 440
  macPrim := 0
  mlen := 32
  mMaxStrength := 256
  cipherPrim := 0
  blen := 16
  klen := 16
  cIsTdea := false
  cMaxStrength := 128
  mechMaxStrength := 256
  entSizeBits := 256#32
  entMaxBytes := 256
  maxStrBytes := 256
  fatalSticky := true
  drbgBase := 0

/-- The hash port (R61): for each hash that a configuration can name, an arbitrary total function to `hlen` bytes. No body: a claim
holds for every hash, and two configurations need not have the same. DESIGN CHOICE, safe (log 4). -/
opaque Config.hashPort (prim hlen : Nat) (m : ByteString) : Vector Byte hlen

/-- The keyed-MAC port (R62): for each MAC that a configuration can name, an arbitrary total function to `mlen` bytes.
DESIGN CHOICE, safe (log 4). -/
opaque Config.macPort (prim mlen : Nat) (k m : ByteString) : Vector Byte mlen

/-- The block-cipher port (R63), encryption only: for each cipher that a configuration can name, an arbitrary total function to
`blen` bytes. DESIGN CHOICE, safe (log 4). -/
opaque Config.cipherPort (prim blen : Nat) (k x : ByteString) : Vector Byte blen

/-- What BLOCK_SIZE_BITS reads when its number for the mechanism of encoding `mech` needs more than 32 bits: R13 makes `HLEN` and
`MLEN` 32-bit lengths in bytes, so that `8 * HLEN` may need 35 bits, and a register value 32 bits; R57 states no value there. A free
value, no body. DESIGN CHOICE, safe (log 19). -/
opaque Config.wideBlockSizeBits (c : Config) (mech : BitVec 2) : Word

/-- The primitives `H`, `M`, `E` as the mechanism rules call them (R12). Not part of the state. -/
structure Prims where
  /-- `H(m)` (R61). -/
  H : ByteString → ByteString
  /-- `M(k, m)` (R62). -/
  M : ByteString → ByteString → ByteString
  /-- `E(k, x)` (R63). -/
  E : ByteString → ByteString → ByteString

/-- The primitives that the configuration connects to the block's ports. -/
def Config.prims (c : Config) : Prims where
  H := fun m => (Config.hashPort c.hashPrim c.hlen m).toList
  M := fun k m => (Config.macPort c.macPrim c.mlen k m).toList
  E := fun k x => (Config.cipherPort c.cipherPrim c.blen k x).toList

end Sys2Proof
end

