-- ==== Sys2Proof/Syntax.lean ====
section
/-! DEFINITION. The commands of DRBG-CTL (30_encoding.md R92, R97): one constructor for each row of spec/opcode_table.json. -/

namespace Sys2Proof

/-- A decoded command word (R97). The ignored bits of the word are not kept (R91, R94). -/
inductive Instr where
  /-- NOP, OPCODE 0x0 (R132). -/
  | nop
  /-- INSTANTIATE, OPCODE 0x1 (R140). -/
  | instantiate
  /-- RESEED, OPCODE 0x2; `aip`: the additional input is present (R145). -/
  | reseed (aip : Bool)
  /-- GENERATE, OPCODE 0x3; `pr`: prediction resistance, `aip`: the additional input is present (R150). -/
  | generate (pr aip : Bool)
  /-- UNINSTANTIATE, OPCODE 0x4 (R160). -/
  | uninstantiate
  /-- RESERVED_5, OPCODE 0x5 (R134). -/
  | reserved5
  /-- RESERVED_6, OPCODE 0x6 (R134). -/
  | reserved6
  /-- RESERVED_7, OPCODE 0x7 (R134). -/
  | reserved7
  /-- RESERVED_8, OPCODE 0x8 (R134). -/
  | reserved8
  /-- RESERVED_9, OPCODE 0x9 (R134). -/
  | reserved9
  /-- RESERVED_10, OPCODE 0xA (R134). -/
  | reserved10
  /-- RESERVED_11, OPCODE 0xB (R134). -/
  | reserved11
  /-- RESERVED_12, OPCODE 0xC (R134). -/
  | reserved12
  /-- RESERVED_13, OPCODE 0xD (R134). -/
  | reserved13
  /-- RESERVED_14, OPCODE 0xE (R134). -/
  | reserved14
  /-- RESERVED_15, OPCODE 0xF (R134). -/
  | reserved15
  deriving DecidableEq, Repr

end Sys2Proof
end

