-- ==== Sys2Proof/WellFormed.lean ====
section
/-! DEFINITION. Well-formedness: which configurations are legal (00_scope.md R6, R7, R13). A command needs no check of its own: its
operands are one-bit fields, and every command word decodes (30_encoding.md R97), so every term of `Instr` is well-formed. -/

namespace Sys2Proof

/-- R13: a length is a 32-bit unsigned integer. -/
def lengthOK (n : Nat) : Bool := n < 2 ^ 32

/-- R7: `SEEDLEN` is a multiple of 8 and at least 8; R13. -/
def Config.seedlenOK (c : Config) : Bool := c.seedlen % 8 = 0 && 8 ≤ c.seedlen && lengthOK c.seedlen

/-- R6: `HLEN` is at least 1; R7: the one-byte counter of Hash_df never wraps; R13. -/
def Config.hashOK (c : Config) : Bool := 1 ≤ c.hlen && ceilDiv c.seedlen (8 * c.hlen) ≤ 255 && lengthOK c.hlen

/-- R6: `MLEN` is at least 1; R13. -/
def Config.macOK (c : Config) : Bool := 1 ≤ c.mlen && lengthOK c.mlen

/-- R7: the block and key lengths of the two cipher variants; R6: `1 ≤ KLEN ≤ 32`. Both lengths fit R13's 32 bits. -/
def Config.cipherOK (c : Config) : Bool :=
  1 ≤ c.klen && c.klen ≤ 32 && (if c.cIsTdea then c.blen = 8 && c.klen = 21 else c.blen = 16)

/-- R6: a string buffer holds at most 1024 bytes, the size of its window (R47); R13: the longest entropy answer's length. -/
def Config.buffersOK (c : Config) : Bool := c.maxStrBytes ≤ 1024 && lengthOK c.entMaxBytes

/-- The configuration is legal: R7, with the ranges R6 gives and the width R13 gives a length (log 6). -/
def Config.legal (c : Config) : Bool :=
  c.seedlenOK && c.hashOK && c.macOK && c.cipherOK && c.buffersOK

/-- Every term of `Instr` is well-formed: R97's decoder is total and no operand has an illegal value. -/
def Instr.wf : Instr → Bool
  | .nop | .instantiate | .reseed _ | .generate _ _ | .uninstantiate
  | .reserved5 | .reserved6 | .reserved7 | .reserved8 | .reserved9 | .reserved10
  | .reserved11 | .reserved12 | .reserved13 | .reserved14 | .reserved15 => true

end Sys2Proof
end

