-- ==== Sys2Proof/Decode.lean ====
section
/-! DEFINITION. The command decoder and encoder (30_encoding.md R90 to R98). -/

namespace Sys2Proof

/-- Why a sequence of words is no command: R98 knows one command length only, one 32-bit word. -/
inductive DecodeReject where
  /-- Not exactly one word (`n` of them). Safe: nothing runs. -/
  | notOneWord (n : Nat)
  deriving DecidableEq, Repr

/-- The command that the fields OPCODE, PR and AIP name (R97). -/
def decodeFields (opcode : BitVec 4) (pr aip : Bool) : Instr :=
  match opcode.toNat with
  | 0 => .nop
  | 1 => .instantiate
  | 2 => .reseed aip
  | 3 => .generate pr aip
  | 4 => .uninstantiate
  | 5 => .reserved5
  | 6 => .reserved6
  | 7 => .reserved7
  | 8 => .reserved8
  | 9 => .reserved9
  | 10 => .reserved10
  | 11 => .reserved11
  | 12 => .reserved12
  | 13 => .reserved13
  | 14 => .reserved14
  | _ => .reserved15

/-- OPCODE, bits [3:0] of a command word (R90). -/
def opcodeOf (w : Word) : BitVec 4 := w.extractLsb' 0 4

/-- PR, bit [8] of a command word (R90). -/
def prOf (w : Word) : Bool := w.getLsbD 8

/-- AIP, bit [9] of a command word (R90). -/
def aipOf (w : Word) : Bool := w.getLsbD 9

/-- R97: total on every 32-bit word. -/
def decode (w : Word) : Instr := decodeFields (opcodeOf w) (prOf w) (aipOf w)

/-- The decoder on a sequence of words: total, and it rejects by name all but a single word (R98). -/
def decodeCommand : List Word → Except DecodeReject Instr
  | [w] => .ok (decode w)
  | ws => .error (.notOneWord ws.length)

/-- The OPCODE of a command (R92). -/
def Instr.opcode : Instr → BitVec 4
  | .nop => 0x0#4
  | .instantiate => 0x1#4
  | .reseed _ => 0x2#4
  | .generate _ _ => 0x3#4
  | .uninstantiate => 0x4#4
  | .reserved5 => 0x5#4
  | .reserved6 => 0x6#4
  | .reserved7 => 0x7#4
  | .reserved8 => 0x8#4
  | .reserved9 => 0x9#4
  | .reserved10 => 0xA#4
  | .reserved11 => 0xB#4
  | .reserved12 => 0xC#4
  | .reserved13 => 0xD#4
  | .reserved14 => 0xE#4
  | .reserved15 => 0xF#4

/-- The PR bit a command is encoded with: 0 where PR is ignored (R94). -/
def Instr.prBit : Instr → Bool
  | .generate pr _ => pr
  | _ => false

/-- The AIP bit a command is encoded with: 0 where AIP is ignored (R94). -/
def Instr.aipBit : Instr → Bool
  | .reseed aip => aip
  | .generate _ aip => aip
  | _ => false

/-- The command word of a command, every ignored bit 0 (R90, R100). -/
def encode (i : Instr) : Word :=
  i.opcode.setWidth 32 ||| (if i.prBit then 0x100#32 else 0#32) ||| (if i.aipBit then 0x200#32 else 0#32)

/-- The bits of the word that the decoder reads for a command's opcode: OPCODE, and PR and AIP where R93 says they are used. -/
def Instr.usedBits : Instr → Word
  | .reseed _ => 0x20F#32
  | .generate _ _ => 0x30F#32
  | _ => 0x00F#32

/-- The 32-bit command word of an opcode-table row whose low `nbits` bits are `w`, bits above `nbits` zero. -/
def tableWord (nbits w : Nat) : Word := BitVec.ofNat 32 (w % 2 ^ nbits)

/-- What the decoder reads from an opcode-table word: a row has at most 32 bits (R98). -/
def decodeTableWord (nbits w : Nat) : Option Instr :=
  if nbits ≤ 32 then
    match decodeCommand [tableWord nbits w] with
    | .ok i => some i
    | .error _ => none
  else none

end Sys2Proof
end

