-- ==== Sys2Proof/Machine/State.lean ====
section
/-! DEFINITION. The state of DRBG-CTL as plain data (10_state.md), its environment's pending events, why a step may stop,
and the state after reset (R66). -/

namespace Sys2Proof.Machine

/-- The lifecycle state STATE (R40). The value 3 is never held. -/
inductive Lifecycle where
  /-- UNINST = 0: no working state. -/
  | uninst
  /-- READY = 1: instantiated. -/
  | ready
  /-- ERROR = 2: a fatal entropy failure has occurred (R243). -/
  | error
  deriving DecidableEq, Repr

/-- PHASE (R65): the command phase. -/
inductive Phase where
  /-- No command runs. -/
  | idle
  /-- One latched command runs; STATUS.BUSY = 1. -/
  | busy
  deriving DecidableEq, Repr

/-- A mechanism (R16, R49). `MECH_L` holds one of the three: the value 3 is never latched (R140; DEDUCED, log 14, safe). -/
inductive Mech where
  /-- HASH = 0. -/
  | hash
  /-- HMAC = 1. -/
  | hmac
  /-- CTR = 2. -/
  | ctr
  deriving DecidableEq, Repr

/-- The result codes of R240; the codes 11 to 15 are never produced. -/
inductive ResultCode where
  /-- 0 (R241). -/
  | ok
  /-- 1 (R242). -/
  | reseedRequired
  /-- 2 (R244). -/
  | requestTooLarge
  /-- 3 (R243). -/
  | entropyStarvation
  /-- 4 (R245). -/
  | cfgStrengthMech
  /-- 5 (R246). -/
  | cfgStrengthPrim
  /-- 6 (R247). -/
  | cfgEntropyCapacity
  /-- 7 (R248). -/
  | cfgInvalid
  /-- 8 (R249). -/
  | inputTooLong
  /-- 9 (R250). -/
  | wrongState
  /-- 10 (R251). -/
  | illegalCommand
  deriving DecidableEq, Repr

/-- The latched command CMD_L: the three decoded fields of the accepted word (R91). -/
structure CmdLatch where
  /-- OPCODE. -/
  opcode : BitVec 4
  /-- PR. -/
  pr : Bool
  /-- AIP. -/
  aip : Bool
  deriving DecidableEq, Repr

/-- The working-state registers V, C, K, Key (R20). HASH uses V and C, HMAC K and V, CTR Key and V; a register the mechanism
does not use, and every register in UNINST and ERROR, has all bits zero, held as the empty string (R24; log 13, safe). -/
structure WorkingState where
  /-- V. -/
  V : ByteString
  /-- C (HASH). -/
  C : ByteString
  /-- K (HMAC). -/
  K : ByteString
  /-- Key (CTR). -/
  Key : ByteString
  deriving DecidableEq, Repr

/-- The working state with all bits zero (R24). -/
def WorkingState.zero : WorkingState := ⟨[], [], [], []⟩

/-- The bytes of the four buffers (R50), each at its bus offset (R77), as a list of (offset, byte) in canonical form: offsets
strictly rising, no entry 0x00. An offset not listed reads 0x00, the spec's reset value of every byte (R50, R66). -/
abbrev Memory := List Host.Cell

/-- One bus transaction of the host (R70) at a system address, of a width in bytes (R72). -/
inductive BusAccess where
  /-- `MemRead(addr, width)`. -/
  | read (addr width : Nat)
  /-- `MemWrite(addr, width, value)`. -/
  | write (addr width : Nat) (value : Word)
  deriving DecidableEq, Repr

/-- The response the host receives (R70): OK or ERROR (`error`), and for a read the 32 bits read. -/
inductive BusResponse where
  /-- The response to a read. -/
  | readResp (error : Bool) (value : Word)
  /-- The response to a write. -/
  | writeResp (error : Bool)
  deriving DecidableEq, Repr

/-- One event of the block's environment, or the controller's turn (R16, R290). The model's own (log 1, log 2). -/
inductive Event where
  /-- The host's next bus access. -/
  | access (a : BusAccess)
  /-- The entropy source answers with these bytes (R60). -/
  | entropy (e : ByteString)
  /-- The controller's turn: a command that is BUSY goes on, and completes if it can (R290). -/
  | controller
  /-- The reset input is asserted (`true`) or released (`false`) (R270). -/
  | reset (asserted : Bool)
  deriving DecidableEq, Repr

/-- The state of the block with the inputs it has still to meet. -/
structure State where
  /-- The static configuration inputs (R6, R272). -/
  cfg : Config
  /-- The level of the reset input (R270). -/
  rst : Bool
  /-- STATE (R40). -/
  lifecycle : Lifecycle
  /-- PHASE (R65), seen as STATUS.BUSY. -/
  phase : Phase
  /-- CMD_L (R65, R91). -/
  cmdL : CmdLatch
  /-- The working state (R20). -/
  ws : WorkingState
  /-- RC, the reseed counter (R30). -/
  rc : BitVec 64
  /-- SS_L, the latched security strength (R32). -/
  ssL : BitVec 16
  /-- MECH_L, the latched mechanism (R33). -/
  mechL : Mech
  /-- TDES_L, the latched triple-DES flag (R33). -/
  tdesL : Bool
  /-- CONFIG.MECH (R49). -/
  mechSel : BitVec 2
  /-- SEC_STRENGTH.STRENGTH (R51). -/
  secStrength : BitVec 16
  /-- STATUS.DONE (R45). -/
  done : Bool
  /-- STATUS.CMD_DROPPED (R45). -/
  cmdDropped : Bool
  /-- STATUS.ERR (R45, R240). -/
  err : ResultCode
  /-- RESULT (R46). -/
  result : Word
  /-- REQ_LEN (R54). -/
  reqLen : Word
  /-- AI_LEN (R55). -/
  aiLen : Word
  /-- PERS_LEN (R55). -/
  persLen : Word
  /-- NONCE_LEN (R55). -/
  nonceLen : Word
  /-- INT_EN.DONE_IE (R58). -/
  doneIe : Bool
  /-- buf[PERS], buf[NONCE], buf[AI], buf[OUT] (R50). -/
  mem : Memory
  /-- The entropy port's request line (R60, R65). -/
  entReq : Bool
  /-- The string the entropy port has delivered to the running command (R60, R53). -/
  entData : Option ByteString
  /-- The model's own: the response of the last bus access (R70; log 8). -/
  busResp : Option BusResponse
  /-- The model's own: what happens next, in order (log 1, log 2). -/
  events : List Event
  deriving DecidableEq, Repr

/-- Why a step stops with a fault. No meaning of a command answers one. -/
inductive Fault where
  /-- The host's access is outside the 128 KiB from DRBG_BASE, so it does not reach the block (R71).
  Raised by the sequencer's bus access. Safe (log 11). -/
  | outsideBlock
  deriving DecidableEq, Repr

/-- Why a step is refused. -/
inductive Refusal where
  /-- An instruction with no meaning yet; raised by exec's arms only. Safe. No arm is refused. -/
  | notModelled (mnemonic : String)
  /-- The configuration breaks R7, a range of R6 or the 32-bit width of a length (R13): "a model refuses a configuration that breaks
  one". Raised by step.
  Safe (log 6). -/
  | illegalConfig
  /-- The entropy source answers with more than ENT_MAX_BYTES bytes, which the port cannot deliver (R60). Raised by the
  sequencer's entropy event. Safe (log 5). -/
  | entropyOverrun
  deriving DecidableEq, Repr

/-- R66 and R270: every piece of the block's state at its reset value. The platform's inputs (`cfg`, `rst`), the host's last
response and the pending events are not the block's state and stay (log 9). -/
def State.resetBlock (s : State) : State where
  cfg := s.cfg
  rst := s.rst
  lifecycle := .uninst
  phase := .idle
  cmdL := ⟨0#4, false, false⟩
  ws := WorkingState.zero
  rc := 0#64
  ssL := 0#16
  mechL := .hash
  tdesL := false
  mechSel := 0#2
  secStrength := 0#16
  done := false
  cmdDropped := false
  err := .ok
  result := 0#32
  reqLen := 0#32
  aiLen := 0#32
  persLen := 0#32
  nonceLen := 0#32
  doneIe := false
  mem := []
  entReq := false
  entData := none
  busResp := s.busResp
  events := s.events

/-- The machine right after reset (R66): the reset input released, no bus access made, no event pending (log 1, log 9), and
the configuration inputs of `Config.initial` (log 3). -/
def State.reset : State where
  cfg := Config.initial
  rst := false
  lifecycle := .uninst
  phase := .idle
  cmdL := ⟨0#4, false, false⟩
  ws := WorkingState.zero
  rc := 0#64
  ssL := 0#16
  mechL := .hash
  tdesL := false
  mechSel := 0#2
  secStrength := 0#16
  done := false
  cmdDropped := false
  err := .ok
  result := 0#32
  reqLen := 0#32
  aiLen := 0#32
  persLen := 0#32
  nonceLen := 0#32
  doneIe := false
  mem := []
  entReq := false
  entData := none
  busResp := none
  events := []

end Sys2Proof.Machine
end

