-- ==== Sys2Proof/Machine/Datapath.lean ====
section
/-! DEFINITION. Datapath arithmetic, ceilings and comparators (40_datapath.md R110 to R123). Each literal of the source is a
named constant (93_implementation_defined.md, part 2). -/

namespace Sys2Proof.Machine

/-! ## Byte-string arithmetic -/

/-- `int(b)` (R110): `b[0]` most significant. -/
def beInt (b : ByteString) : Nat := b.foldl (fun acc x => acc * 256 + x.toNat) 0

/-- `bytes(v, n)` (R110): the low `n` bytes of `v`, most significant first; higher bits are dropped. -/
def beBytes (v : Nat) : Nat → ByteString
  | 0 => []
  | n + 1 => BitVec.ofNat 8 (v / 256 ^ n) :: beBytes v n

/-- `enc32(v)` (R110). -/
def enc32 (v : Nat) : ByteString := beBytes v 4

/-- `BEAdd(a, b1, …, bk)` (R111): fixed-width big-endian addition; the carry out of byte 0 is dropped. -/
def beAdd (a : ByteString) (bs : List ByteString) : ByteString :=
  beBytes (beInt a + (bs.map beInt).sum) a.length

/-- `Inc(a)` (R112). -/
def inc (a : ByteString) : ByteString := beAdd a [[0x01#8]]

/-- `LeftBytes(b, n)` (R113). -/
def leftBytes (b : ByteString) (n : Nat) : ByteString := b.take n

/-- `LeftBits(b, nb)` (R114): one right shift across the whole truncated buffer. -/
def leftBits (b : ByteString) (nb : Nat) : ByteString :=
  let m := ceilDiv nb 8
  let t := leftBytes b m
  if nb % 8 = 0 then t else beBytes (beInt t >>> (8 - nb % 8)) m

/-- `a XOR b` (R115). -/
def xorBytes (a b : ByteString) : ByteString := List.zipWith (· ^^^ ·) a b

/-- `orEmpty` (R11, R116). -/
def orEmpty : Option ByteString → ByteString
  | none => []
  | some b => b

/-- The field `x` of a 32-bit word at bit `lo` (R9): the other bits 0. -/
def fieldAt {n : Nat} (lo : Nat) (x : BitVec n) : Word := x.setWidth 32 <<< lo

/-! ## Ceilings -/

/-- 2^19 bits (R121). -/
def maxReqBitsStd : Nat := 0x80000

/-- 2^13 bits (R121). -/
def maxReqBitsTdea : Nat := 0x2000

/-- 2^48 (R121). -/
def reseedMaxStd : Nat := 0x1000000000000

/-- 2^32 (R121). -/
def reseedMaxTdea : Nat := 0x100000000

/-- The triple-DES row of R121's table applies. -/
def tdeaCeilings (m : Mech) (tdes : Bool) : Bool := m == .ctr && tdes

/-- `MAX_REQ_BITS` (R121) of a latched mechanism and TDES_L. -/
def maxReqBits (m : Mech) (tdes : Bool) : Nat := if tdeaCeilings m tdes then maxReqBitsTdea else maxReqBitsStd

/-- `RESEED_MAX` (R121) of a latched mechanism and TDES_L. -/
def reseedMax (m : Mech) (tdes : Bool) : Nat := if tdeaCeilings m tdes then reseedMaxTdea else reseedMaxStd

/-! ## Comparators -/

/-- `TooLarge(n)` (R117): the exact product, no wrap. -/
def tooLarge (m : Mech) (tdes : Bool) (n : Nat) : Bool := maxReqBits m tdes < 8 * n

/-- `ReseedDue` (R118): a 64-bit unsigned comparison. -/
def reseedDue (m : Mech) (tdes : Bool) (rc : BitVec 64) : Bool := reseedMax m tdes < rc.toNat

/-- `EntropyOK(e, ss)` (R120). -/
def entropyOK (e : ByteString) (ss : BitVec 16) : Bool := ceilDiv ss.toNat 8 ≤ e.length

/-- `PRIM_MAX(mech)` (R123). -/
def primMax (c : Config) : Mech → Nat
  | .hash => c.hMaxStrength
  | .hmac => c.mMaxStrength
  | .ctr => c.cMaxStrength

/-- `StrengthMechOK(ss)` (R122). -/
def strengthMechOK (c : Config) (ss : BitVec 16) : Bool := ss.toNat ≤ c.mechMaxStrength

/-- `StrengthPrimOK(ss, mech)` (R122). -/
def strengthPrimOK (c : Config) (ss : BitVec 16) (m : Mech) : Bool := ss.toNat ≤ primMax c m

/-- `CapacityOK(ss)` (R122). -/
def capacityOK (c : Config) (ss : BitVec 16) : Bool := ss.toNat ≤ c.entSizeBits.toNat

end Sys2Proof.Machine
end

