-- ==== Sys2Proof/Machine/Ops.lean ====
section
/-! DEFINITION. The shared operations over the buffers' memory and over the registers: reading and writing bytes, completing a
command (the block's one way to report an outcome: it has no trap, R256), starvation, zeroization, acceptance, the entropy
request. -/

namespace Sys2Proof.Machine

/-! ## The buffers' memory (10_state.md R50; 20_memory.md R77) -/

/-- What an offset not listed in the memory reads as: every byte resets to 0x00 (R50, R66). -/
def Memory.unlisted : Byte := 0x00#8

/-- The canonical form: offsets strictly rising, no entry equal to what an unlisted offset reads as. -/
abbrev Memory.wf (m : Memory) : Prop :=
  m.Pairwise (fun x y => x.1 < y.1) ∧ ∀ x ∈ m, x.2 ≠ Memory.unlisted

/-- The byte at offset `a`. -/
def Memory.read (m : Memory) (a : Nat) : Byte :=
  match m.find? (fun x => x.1 == a) with
  | some x => x.2
  | none => Memory.unlisted

/-- The `n` bytes from offset `a` on. -/
def Memory.readBytes (m : Memory) (a : Nat) : (n : Nat) → ByteString
  | 0 => []
  | n + 1 => Memory.read m a :: Memory.readBytes m (a + 1) n

/-- The entries of the bytes `bs` stored from offset `a` on; a byte equal to an unlisted one has no entry. -/
def Memory.cells (a : Nat) : ByteString → Memory
  | [] => []
  | b :: bs => if b = Memory.unlisted then Memory.cells (a + 1) bs else (a, b) :: Memory.cells (a + 1) bs

/-- The bytes `bs` stored from offset `a` on; every other byte stays. -/
def Memory.writeBytes (m : Memory) (a : Nat) (bs : ByteString) : Memory :=
  if bs = [] then m
  else m.filter (fun x => x.1 < a) ++ Memory.cells a bs ++ m.filter (fun x => a + bs.length ≤ x.1)

/-- The `n` bytes from offset `a` on set to 0x00; every other byte stays. -/
def Memory.clearBytes (m : Memory) (a n : Nat) : Memory :=
  m.filter (fun x => x.1 < a || a + n ≤ x.1)

/-- The four buffers of R50. -/
inductive Buf where
  /-- buf[PERS]. -/
  | pers
  /-- buf[NONCE]. -/
  | nonce
  /-- buf[AI]. -/
  | ai
  /-- buf[OUT]. -/
  | out
  deriving DecidableEq, Repr

/-- The offset of a buffer's window (R47): string byte `i` is at this offset plus `i` (R77). -/
def Buf.base : Buf → Nat
  | .pers => 0x400
  | .nonce => 0x800
  | .ai => 0xC00
  | .out => 0x10000

/-- `OUT_BYTES` (R6, R50). -/
def outBytes : Nat := 65536

/-- The number of bytes a buffer holds (R50). -/
def Buf.size (c : Config) : Buf → Nat
  | .pers | .nonce | .ai => c.maxStrBytes
  | .out => outBytes

/-- `buf[b][0..n-1]` (R12). -/
def State.bufString (s : State) (b : Buf) (n : Nat) : ByteString := Memory.readBytes s.mem b.base n

/-! ## Completing a command (41_commands.md R131) -/

/-- `complete(code, result)` (R131): the status update of every completion. The entropy port is idle again, since the
command's one fetch is over (R60; DEDUCED, log 5). CMD_L keeps the last command (R131 does not name it; DEDUCED, log 15). -/
def complete (code : ResultCode) (result : Word) (s : State) : State :=
  { s with
    err := code, result := result, phase := .idle, done := true
    entReq := false, entData := none }

/-- The RESULT of a completion that is not OK (R46): the distinguished value for RESEED_REQUIRED, else 0. -/
def rejectResult : ResultCode → Word
  | .reseedRequired => 0xFFFFFFFF#32
  | _ => 0#32

/-- `raise code` (R12, R240): the command ends with this code and no change beyond the status update. Also RESEED_REQUIRED's
completion (R150, R153). -/
def reject (code : ResultCode) (s : State) : State := complete code (rejectResult code) s

/-- Zeroization (R44): the working state, RC, SS_L, MECH_L, TDES_L and every byte of buf[OUT]. -/
def zeroize (s : State) : State :=
  { s with
    ws := WorkingState.zero, rc := 0#64, ssL := 0#16, mechL := .hash, tdesL := false
    mem := Memory.clearBytes s.mem (Buf.base .out) outBytes }

/-- The state changes of `starve()` before its completion (R243). -/
def starveChanges (s : State) : State :=
  if s.cfg.fatalSticky then { zeroize s with lifecycle := .error } else s

/-- `starve()` (R243). -/
def starve (s : State) : State := complete .entropyStarvation 0#32 (starveChanges s)

/-- The command needs its one entropy fetch and the port has not answered: the request line is asserted and the command stays
BUSY (R60, R279). -/
def awaitEntropy (s : State) : State := { s with entReq := true }

/-! ## Acceptance (41_commands.md R130) -/

/-- A command word that is neither NOP nor dropped is accepted: PHASE, CMD_L, BUSY and DONE (R130). -/
def accept (w : Word) (s : State) : State :=
  { s with phase := .busy, cmdL := ⟨opcodeOf w, prOf w, aipOf w⟩, done := false }

/-- A non-NOP CMD write while BUSY (R130, R252). -/
def dropCommand (s : State) : State := { s with cmdDropped := true }

/-- The command that CMD_L holds (R91, R97). -/
def CmdLatch.instr (l : CmdLatch) : Instr := decodeFields l.opcode l.pr l.aip

/-- The host receives a bus response (R70). -/
def respond (r : BusResponse) (s : State) : State := { s with busResp := some r }

end Sys2Proof.Machine
end

