-- ==== Sys2Proof/Machine/Flags.lean ====
section
/-! DEFINITION. The status flags, the STATUS word, the interrupt and the informational registers
(10_state.md R45, R57, R59, R67; 60_exceptions.md R240). -/

namespace Sys2Proof.Machine

/-- STATE's encoding (R40). -/
def Lifecycle.code : Lifecycle → BitVec 2
  | .uninst => 0#2
  | .ready => 1#2
  | .error => 2#2

/-- MECH_L's encoding (R33, R49). -/
def Mech.code : Mech → BitVec 2
  | .hash => 0#2
  | .hmac => 1#2
  | .ctr => 2#2

/-- The result codes' numbers (R240). -/
def ResultCode.code : ResultCode → BitVec 4
  | .ok => 0#4
  | .reseedRequired => 1#4
  | .requestTooLarge => 2#4
  | .entropyStarvation => 3#4
  | .cfgStrengthMech => 4#4
  | .cfgStrengthPrim => 5#4
  | .cfgEntropyCapacity => 6#4
  | .cfgInvalid => 7#4
  | .inputTooLong => 8#4
  | .wrongState => 9#4
  | .illegalCommand => 10#4

/-- STATUS.BUSY (R45, R65). -/
def State.busy (s : State) : Bool := s.phase == .busy

/-- STATE = READY. -/
def State.isReady (s : State) : Bool := s.lifecycle == .ready

/-- `ReseedDue` of the latched mechanism (R118). -/
def State.counterPastCeiling (s : State) : Bool := reseedDue s.mechL s.tdesL s.rc

/-- STATUS.RESEED_DUE (R45, R118): live, no storage. -/
def State.reseedDueFlag (s : State) : Bool := s.isReady && s.counterPastCeiling

/-- The STATUS word (R45): bit 0 to 1 STATE, 2 BUSY, 3 DONE, 4 RESEED_DUE, 5 to 6 MECH_L, 7 TDES_L, 8 to 11 ERR,
12 CMD_DROPPED, the rest 0. -/
def State.statusWord (s : State) : Word :=
  fieldAt 0 s.lifecycle.code ||| fieldAt 2 (BitVec.ofBool s.busy) ||| fieldAt 3 (BitVec.ofBool s.done)
    ||| fieldAt 4 (BitVec.ofBool s.reseedDueFlag) ||| fieldAt 5 s.mechL.code ||| fieldAt 7 (BitVec.ofBool s.tdesL)
    ||| fieldAt 8 s.err.code ||| fieldAt 12 (BitVec.ofBool s.cmdDropped)

/-- The `irq` output (R59). -/
def State.irq (s : State) : Bool := s.done && s.doneIe

/-- A write of STATUS (R45): bit 3 clears DONE, bit 12 clears CMD_DROPPED; also while BUSY (R68). -/
def writeStatus (v : Word) (s : State) : State :=
  { s with done := s.done && !v.getLsbD 3, cmdDropped := s.cmdDropped && !v.getLsbD 12 }

/-! ## Informational registers (R57) -/

/-- A register that reads 0 unless STATE is READY (R57). -/
def State.whenReady (s : State) (v : Word) : Word := if s.isReady then v else 0#32

/-- The number `n` in a 32-bit register (R13): itself when it fits. For a number of more than 32 bits the spec states no value,
and the register reads the free value `wide` (DESIGN CHOICE, safe; log 19). -/
def registerWord (wide : Word) (n : Nat) : Word := if n < 2 ^ 32 then BitVec.ofNat 32 n else wide

/-- BLOCK_SIZE_BITS of a READY state (R57, R178, R194, R219). -/
def State.blockSizeBits (s : State) : Nat :=
  match s.mechL with
  | .hash => 8 * s.cfg.hlen
  | .hmac => 8 * s.cfg.mlen
  | .ctr => if s.tdesL then 64 else 8 * s.cfg.blen

/-- BLOCK_SIZE_BITS as a READY state reads it (R57); above 32 bits a free value (log 19). -/
def State.blockSizeWord (s : State) : Word :=
  registerWord (s.cfg.wideBlockSizeBits s.mechL.code) s.blockSizeBits

/-- SEEDLEN_BITS of a READY state (R57, R178, R194, R219). -/
def State.seedlenBits (s : State) : Nat :=
  match s.mechL with
  | .hash => s.cfg.seedlen
  | .hmac => 0
  | .ctr => if s.tdesL then 232 else 8 * (s.cfg.klen + s.cfg.blen)

/-- SEEDLEN_BITS as a READY state reads it (R57): in a legal configuration the number has 32 bits (R13). -/
def State.seedlenWord (s : State) : Word := BitVec.ofNat 32 s.seedlenBits

/-- MAX_REQ_BITS of a READY state (R57, R121): at most 2^19. -/
def State.maxRequest (s : State) : Nat := maxReqBits s.mechL s.tdesL

/-- RESEED_MAX of a READY state (R57, R121): at most 2^48, read as two words. -/
def State.reseedCeiling (s : State) : Nat := reseedMax s.mechL s.tdesL

end Sys2Proof.Machine
end

