-- ==== Sys2Proof/Machine/Bus.lean ====
section
/-! DEFINITION. The register map and the buffer windows (10_state.md R47; 20_memory.md R70 to R81). -/

namespace Sys2Proof.Machine

/-- The registers of R47. -/
inductive Reg where
  | id | config | secStrength | cmd | status | result | reqLen | aiLen | persLen | nonceLen
  | reseedCtrLo | reseedCtrHi | blockSizeBits | seedlenBits | maxReqBits | reseedMaxLo | reseedMaxHi
  | strengthL | intEn
  deriving DecidableEq, Repr

/-- What an aligned offset of the block's 128 KiB reaches (R47). -/
inductive Target where
  /-- A register. -/
  | reg (r : Reg)
  /-- The byte `i` of a buffer's window. -/
  | window (b : Buf) (i : Nat)
  /-- A reserved offset (R74). -/
  | reserved
  deriving DecidableEq, Repr

/-- The size of the register space: 17 address bits (R71). -/
def spaceBytes : Nat := 0x20000

/-- The offsets of the registers (R47). -/
def Reg.offset : Reg → Nat
  | .id => 0x000
  | .config => 0x004
  | .secStrength => 0x008
  | .cmd => 0x00C
  | .status => 0x010
  | .result => 0x014
  | .reqLen => 0x018
  | .aiLen => 0x01C
  | .persLen => 0x020
  | .nonceLen => 0x024
  | .reseedCtrLo => 0x028
  | .reseedCtrHi => 0x02C
  | .blockSizeBits => 0x030
  | .seedlenBits => 0x034
  | .maxReqBits => 0x038
  | .reseedMaxLo => 0x03C
  | .reseedMaxHi => 0x040
  | .strengthL => 0x044
  | .intEn => 0x048

/-- The registers in the order of R47. -/
def Reg.all : List Reg :=
  [.id, .config, .secStrength, .cmd, .status, .result, .reqLen, .aiLen, .persLen, .nonceLen, .reseedCtrLo, .reseedCtrHi,
    .blockSizeBits, .seedlenBits, .maxReqBits, .reseedMaxLo, .reseedMaxHi, .strengthL, .intEn]

/-- The register at an offset, if there is one. -/
def Reg.ofOffset (off : Nat) : Option Reg := Reg.all.find? fun r => r.offset == off

/-- The map of R47. -/
def targetOf (off : Nat) : Target :=
  if off < 0x400 then
    match Reg.ofOffset off with
    | some r => .reg r
    | none => .reserved
  else if off < 0x800 then .window .pers (off - 0x400)
  else if off < 0xC00 then .window .nonce (off - 0x800)
  else if off < 0x1000 then .window .ai (off - 0xC00)
  else if off < 0x10000 then .reserved
  else .window .out (off - 0x10000)

/-- The constant of ID (R48). -/
def idValue : Word := 0x44524247#32

/-- A register's value as the host reads it (R47 and the rules it names). -/
def readReg (s : State) : Reg → Word
  | .id => idValue
  | .config => s.mechSel.setWidth 32
  | .secStrength => s.secStrength.setWidth 32
  | .cmd => 0#32
  | .status => s.statusWord
  | .result => s.result
  | .reqLen => s.reqLen
  | .aiLen => s.aiLen
  | .persLen => s.persLen
  | .nonceLen => s.nonceLen
  | .reseedCtrLo => s.rc.extractLsb' 0 32
  | .reseedCtrHi => s.rc.extractLsb' 32 32
  | .blockSizeBits => s.whenReady s.blockSizeWord
  | .seedlenBits => s.whenReady s.seedlenWord
  | .maxReqBits => s.whenReady (BitVec.ofNat 32 s.maxRequest)
  | .reseedMaxLo => s.whenReady (BitVec.ofNat 32 (s.reseedCeiling % 2 ^ 32))
  | .reseedMaxHi => s.whenReady (BitVec.ofNat 32 (s.reseedCeiling / 2 ^ 32))
  | .strengthL => s.whenReady (s.ssL.setWidth 32)
  | .intEn => if s.doneIe then 1#32 else 0#32

/-- Little-endian lanes (R77): string byte `t` of a word is in bits [8t+7:8t]. -/
def wordOfBytes (b0 b1 b2 b3 : Byte) : Word := fieldAt 0 b0 ||| fieldAt 8 b1 ||| fieldAt 16 b2 ||| fieldAt 24 b3

/-- The four string bytes of a word (R77). -/
def bytesOfWord (v : Word) : ByteString :=
  [v.extractLsb' 0 8, v.extractLsb' 8 8, v.extractLsb' 16 8, v.extractLsb' 24 8]

/-- The byte `i` of a buffer's window: 0 at or above the buffer's size (R74, R78). -/
def windowByte (s : State) (b : Buf) (i : Nat) : Byte :=
  if i < b.size s.cfg then Memory.read s.mem (b.base + i) else 0#8

/-- `MemRead` of the word at byte `i` of a window (R78). -/
def readWindow (s : State) (b : Buf) (i : Nat) : Word :=
  wordOfBytes (windowByte s b i) (windowByte s b (i + 1)) (windowByte s b (i + 2)) (windowByte s b (i + 3))

/-- `MemWrite` of the word at byte `i` of an input window, BUSY = 0: only bytes below the buffer's size are stored (R78). -/
def writeWindow (v : Word) (b : Buf) (i : Nat) (s : State) : State :=
  { s with mem := Memory.writeBytes s.mem (b.base + i) ((bytesOfWord v).take (b.size s.cfg - i)) }

/-- An argument write: ignored while BUSY (R68); that an ignored one is answered OK is DESIGN CHOICE (log 16). -/
def whenIdle (s s' : State) : State := if s.busy then s else s'

/-- A write of a register other than CMD (R45, R47, R68): each stores the bits its field list gives. A write of an RO register
is ignored; that it is answered OK is DESIGN CHOICE (log 16). CMD is the sequencer's (R130). -/
def writeReg (v : Word) (s : State) : Reg → State
  | .config => whenIdle s { s with mechSel := v.extractLsb' 0 2 }
  | .secStrength => whenIdle s { s with secStrength := v.extractLsb' 0 16 }
  | .status => writeStatus v s
  | .reqLen => whenIdle s { s with reqLen := v }
  | .aiLen => whenIdle s { s with aiLen := v }
  | .persLen => whenIdle s { s with persLen := v }
  | .nonceLen => whenIdle s { s with nonceLen := v }
  | .intEn => { s with doneIe := v.getLsbD 0 }
  | .cmd | .id | .result | .reseedCtrLo | .reseedCtrHi | .blockSizeBits | .seedlenBits | .maxReqBits
  | .reseedMaxLo | .reseedMaxHi | .strengthL => s

/-- An aligned 32-bit read (R47, R74, R78). Reads have no side effect (R80). -/
def readTarget (s : State) : Target → Word
  | .reg r => readReg s r
  | .window b i => readWindow s b i
  | .reserved => 0#32

/-- An aligned 32-bit write, of any target but CMD (R47, R68, R74, R78). -/
def writeTarget (v : Word) (s : State) : Target → State
  | .reg r => writeReg v s r
  | .window .out _ => s
  | .window b i => whenIdle s (writeWindow v b i s)
  | .reserved => s

end Sys2Proof.Machine
end

