-- ==== Sys2Proof/Machine/CtrDrbg.lean ====
section
/-! DEFINITION. The CTR_DRBG datapath (44_ctr_drbg.md R210 to R219): pure functions of their operands, of the triple-DES flag
and of the block cipher `E`. The loops "while len(temp) < n" make `ceil(n / BLEN)` rounds (log 12, safe). -/

namespace Sys2Proof.Machine

/-- The number of 1 bits of the 7-bit number `b7` (R210). -/
def popcount7 (b7 : Nat) : Nat := ((List.range 7).filter fun i => b7.testBit i).length

/-- One key byte of the expansion: 7 key bits in bits [7:1], odd parity in bit [0] (R210). -/
def parityByte (b7 : Nat) : Byte := BitVec.ofNat 8 (2 * b7 + if popcount7 b7 % 2 = 0 then 1 else 0)

/-- The 8 key bytes of one 7-byte segment, most significant bits first (R210). -/
def expandSegment (seg : ByteString) : ByteString :=
  (List.range 8).map fun j => parityByte ((beInt seg >>> (49 - 7 * j)) &&& 0x7F)

/-- `ExpandTDEA(k)` (R210): 21 bytes to 24. -/
def expandTdea (k : ByteString) : ByteString :=
  (List.range 3).flatMap fun s => expandSegment ((k.drop (7 * s)).take 7)

/-- `Enc(k, x)` (R211): one cipher use; the key is expanded before each when the triple-DES flag is set. -/
def enc (p : Prims) (tdes : Bool) (k x : ByteString) : ByteString := p.E (if tdes then expandTdea k else k) x

/-- The chaining of BCC over the next `blocks` blocks of `data` (R212). -/
def bccRounds (p : Prims) (tdes : Bool) (blen : Nat) (key : ByteString) : (blocks : Nat) → (cv data : ByteString) → ByteString
  | 0, cv, _ => cv
  | k + 1, cv, data => bccRounds p tdes blen key k (enc p tdes key (xorBytes cv (data.take blen))) (data.drop blen)

/-- `BCC(key, iv, data)` (R212). -/
def bcc (p : Prims) (c : Config) (tdes : Bool) (key iv data : ByteString) : ByteString :=
  bccRounds p tdes c.blen key (data.length / c.blen) (enc p tdes key iv) data

/-- The end marker of Block_Cipher_df's input (R213). -/
def dfEndMarker : Byte := 0x80#8

/-- The 32-byte ascending sequence 00 01 … 1F (R213). -/
def dfKeySequence : ByteString := (List.range 32).map (BitVec.ofNat 8)

/-- Zero padding to a multiple of `b` bytes (R213). -/
def padTo (b : Nat) (x : ByteString) : ByteString := x ++ zeros ((b - x.length % b) % b)

/-- The input string `S` of Block_Cipher_df (R213): the two lengths count bytes. -/
def dfInput (c : Config) (x : ByteString) (N : Nat) : ByteString :=
  padTo c.blen (enc32 x.length ++ enc32 N ++ x ++ [dfEndMarker])

/-- The BCC outputs of Block_Cipher_df for the counters `i, i+1, …`, `rounds` of them (R213). -/
def dfBccRounds (p : Prims) (c : Config) (tdes : Bool) (K0 S : ByteString) : (rounds i : Nat) → ByteString
  | 0, _ => []
  | k + 1, i => bcc p c tdes K0 (enc32 i ++ zeros (c.blen - 4)) S ++ dfBccRounds p c tdes K0 S k (i + 1)

/-- The stretch of Block_Cipher_df: each block is the encryption of the one before (R213). -/
def dfStretch (p : Prims) (tdes : Bool) (K : ByteString) : (rounds : Nat) → (X : ByteString) → ByteString
  | 0, _ => []
  | k + 1, X => enc p tdes K X ++ dfStretch p tdes K k (enc p tdes K X)

/-- `Block_Cipher_df(x, nb)` (R213). -/
def blockCipherDf (p : Prims) (c : Config) (tdes : Bool) (x : ByteString) (nb : Nat) : ByteString :=
  let N := nb / 8
  let S := dfInput c x N
  let temp := dfBccRounds p c tdes (leftBytes dfKeySequence c.klen) S (ceilDiv c.sl c.blen) 0
  let K := leftBytes temp c.klen
  let X := (temp.drop c.klen).take c.blen
  leftBytes (dfStretch p tdes K (ceilDiv N c.blen) X) N

/-- The keystream of CTR mode: `V` is incremented before each encryption; the blocks and the last `V` (R214, R217). -/
def ctrStream (p : Prims) (tdes : Bool) (Key : ByteString) : (rounds : Nat) → (V : ByteString) → ByteString × ByteString
  | 0, V => ([], V)
  | k + 1, V =>
    let V' := inc V
    let r := ctrStream p tdes Key k V'
    (enc p tdes Key V' ++ r.1, r.2)

/-- `CTR_Update(seed, Key, V)` (R214): the new (Key, V). -/
def ctrUpdate (p : Prims) (c : Config) (tdes : Bool) (seed : ByteString) (kv : ByteString × ByteString) :
    ByteString × ByteString :=
  let temp := xorBytes (leftBytes (ctrStream p tdes kv.1 (ceilDiv c.sl c.blen) kv.2).1 c.sl) seed
  (temp.take c.klen, temp.drop c.klen)

/-- The working state of a key and a value. -/
def ctrState (kv : ByteString × ByteString) : WorkingState := ⟨kv.2, [], [], kv.1⟩

/-- `Instantiate[CTR](e, nonce, pers)` (R215). -/
def ctrInstantiate (p : Prims) (c : Config) (tdes : Bool) (e nonce pers : ByteString) : WorkingState :=
  let seed := blockCipherDf p c tdes (e ++ nonce ++ pers) (8 * c.sl)
  ctrState (ctrUpdate p c tdes seed (zeros c.klen, zeros c.blen))

/-- `Reseed[CTR](ws, e, ai)` (R216). -/
def ctrReseed (p : Prims) (c : Config) (tdes : Bool) (ws : WorkingState) (e ai : ByteString) : WorkingState :=
  let seed := blockCipherDf p c tdes (e ++ ai) (8 * c.sl)
  ctrState (ctrUpdate p c tdes seed (ws.Key, ws.V))

/-- The string `a2` and the (Key, V) that a generate starts from (R217, R218): a present additional input is derived and fed
to CTR_Update; an absent one gives `zeros(SL)` and no update. -/
def ctrAbsorb (p : Prims) (c : Config) (tdes : Bool) (kv : ByteString × ByteString) :
    Option ByteString → ByteString × (ByteString × ByteString)
  | none => (zeros c.sl, kv)
  | some a =>
    let a2 := blockCipherDf p c tdes a (8 * c.sl)
    (a2, ctrUpdate p c tdes a2 kv)

/-- `Generate[CTR](ws, rc, n, ai)` (R217): `rc` is not read; the final update always runs. -/
def ctrGenerate (p : Prims) (c : Config) (tdes : Bool) (ws : WorkingState) (n : Nat) (ai : Option ByteString) :
    ByteString × WorkingState :=
  let a := ctrAbsorb p c tdes (ws.Key, ws.V) ai
  let r := ctrStream p tdes a.2.1 (ceilDiv n c.blen) a.2.2
  (leftBytes r.1 n, ctrState (ctrUpdate p c tdes a.1 (a.2.1, r.2)))

end Sys2Proof.Machine
end

