-- ==== Sys2Proof/Machine/HashDrbg.lean ====
section
/-! DEFINITION. The Hash_DRBG datapath (42_hash_drbg.md R170 to R178): pure functions of their operands and of the hash `H`.
A loop "for i = 1 .. m" is structural recursion on the number of rounds still to make (log 12, safe). -/

namespace Sys2Proof.Machine

/-- The prefix of the `C` derivation (R173, R174). -/
def hashPrefixC : Byte := 0x00#8

/-- The prefix of the reseed's seed material (R174; 90_conflicts.md C1). -/
def hashPrefixReseed : Byte := 0x01#8

/-- The prefix of the additional-input hash (R175). -/
def hashPrefixAi : Byte := 0x02#8

/-- The prefix of the final hash of a generate (R175). -/
def hashPrefixFinal : Byte := 0x03#8

/-- The digests of Hash_df for the counters `i, i+1, …`, `rounds` of them (R170). -/
def hashDfRounds (p : Prims) (x : ByteString) (nb : Nat) : (rounds i : Nat) → ByteString
  | 0, _ => []
  | k + 1, i => p.H (beBytes i 1 ++ enc32 nb ++ x) ++ hashDfRounds p x nb k (i + 1)

/-- `Hash_df(x, nb)` (R170, R171). The counter starts at 1. -/
def hashDf (p : Prims) (c : Config) (x : ByteString) (nb : Nat) : ByteString :=
  leftBits (hashDfRounds p x nb (ceilDiv nb (8 * c.hlen)) 1) nb

/-- The digests of Hashgen from `data` on, `rounds` of them (R172). -/
def hashgenRounds (p : Prims) : (rounds : Nat) → (data : ByteString) → ByteString
  | 0, _ => []
  | k + 1, data => p.H data ++ hashgenRounds p k (inc data)

/-- `Hashgen(V, n)` (R172). -/
def hashgen (p : Prims) (c : Config) (V : ByteString) (n : Nat) : ByteString :=
  leftBytes (hashgenRounds p (ceilDiv n c.hlen) V) n

/-- The working state of a Hash_DRBG whose new `V` is given: `C = Hash_df(0x00 ‖ V, SEEDLEN)` (R173, R174). -/
def hashSeeded (p : Prims) (c : Config) (V : ByteString) : WorkingState :=
  ⟨V, hashDf p c (hashPrefixC :: V) c.seedlen, [], []⟩

/-- `Instantiate[HASH](e, nonce, pers)` (R173). -/
def hashInstantiate (p : Prims) (c : Config) (e nonce pers : ByteString) : WorkingState :=
  hashSeeded p c (hashDf p c (e ++ nonce ++ pers) c.seedlen)

/-- `Reseed[HASH](ws, e, ai)` (R174). -/
def hashReseed (p : Prims) (c : Config) (ws : WorkingState) (e ai : ByteString) : WorkingState :=
  hashSeeded p c (hashDf p c (hashPrefixReseed :: (ws.V ++ e ++ ai)) c.seedlen)

/-- The `V` that a generate starts from: with a present additional input, `(V + w) mod 2^SEEDLEN` (R175, R176). -/
def hashAbsorb (p : Prims) (V : ByteString) : Option ByteString → ByteString
  | none => V
  | some a => beAdd V [p.H (hashPrefixAi :: (V ++ a))]

/-- `Generate[HASH](ws, rc, n, ai)` (R175 to R177): the output and the new working state. -/
def hashGenerate (p : Prims) (c : Config) (ws : WorkingState) (rc n : Nat) (ai : Option ByteString) :
    ByteString × WorkingState :=
  let V := hashAbsorb p ws.V ai
  let h := p.H (hashPrefixFinal :: V)
  (hashgen p c V n, ⟨beAdd V [h, ws.C, enc32 rc], ws.C, [], []⟩)

end Sys2Proof.Machine
end

