-- ==== Sys2Proof/Machine/HmacDrbg.lean ====
section
/-! DEFINITION. The HMAC_DRBG datapath (43_hmac_drbg.md R190 to R194): pure functions of their operands and of the MAC `M`.
The loop "while len(temp) < n" makes `ceil(n / MLEN)` rounds (log 12, safe). -/

namespace Sys2Proof.Machine

/-- The domain byte of Update's first pass (R190). -/
def hmacDomain0 : Byte := 0x00#8

/-- The domain byte of Update's second pass (R190). -/
def hmacDomain1 : Byte := 0x01#8

/-- One pass of Update (R190): `K = M(K, V ‖ domain ‖ s)`, then `V = M(K, V)`. -/
def hmacPass (p : Prims) (domain : Byte) (kv : ByteString × ByteString) (s : ByteString) : ByteString × ByteString :=
  let K := p.M kv.1 (kv.2 ++ domain :: s)
  (K, p.M K kv.2)

/-- `Update(K, V, sm)` (R190; 90_conflicts.md C2): the second pass runs when `sm` is present, also when it is empty. -/
def hmacUpdate (p : Prims) (kv : ByteString × ByteString) (sm : Option ByteString) : ByteString × ByteString :=
  let first := hmacPass p hmacDomain0 kv (orEmpty sm)
  match sm with
  | none => first
  | some s => hmacPass p hmacDomain1 first s

/-- The working state of a key and a value. -/
def hmacState (kv : ByteString × ByteString) : WorkingState := ⟨kv.2, [], kv.1, []⟩

/-- `Instantiate[HMAC](e, nonce, pers)` (R191; 90_conflicts.md C3). -/
def hmacInstantiate (p : Prims) (c : Config) (e nonce pers : ByteString) : WorkingState :=
  hmacState (hmacUpdate p (zeros c.mlen, ones01 c.mlen) (some (e ++ nonce ++ pers)))

/-- `Reseed[HMAC](ws, e, ai)` (R192). -/
def hmacReseed (p : Prims) (ws : WorkingState) (e ai : ByteString) : WorkingState :=
  hmacState (hmacUpdate p (ws.K, ws.V) (some (e ++ ai)))

/-- The output rounds of a generate: the concatenated values and the last `V` (R193). -/
def hmacOutput (p : Prims) (K : ByteString) : (rounds : Nat) → (V : ByteString) → ByteString × ByteString
  | 0, V => ([], V)
  | k + 1, V =>
    let V' := p.M K V
    let r := hmacOutput p K k V'
    (V' ++ r.1, r.2)

/-- The key and value a generate starts from: a present additional input is first fed to Update (R193). -/
def hmacAbsorb (p : Prims) (kv : ByteString × ByteString) : Option ByteString → ByteString × ByteString
  | none => kv
  | some a => hmacUpdate p kv (some a)

/-- `Generate[HMAC](ws, rc, n, ai)` (R193): `rc` is not read. -/
def hmacGenerate (p : Prims) (c : Config) (ws : WorkingState) (n : Nat) (ai : Option ByteString) :
    ByteString × WorkingState :=
  let kv := hmacAbsorb p (ws.K, ws.V) ai
  let r := hmacOutput p kv.1 (ceilDiv n c.mlen) kv.2
  (leftBytes r.1 n, hmacState (hmacUpdate p (kv.1, r.2) ai))

end Sys2Proof.Machine
end

