-- ==== Sys2Proof/Machine/Operands.lean ====
section
/-! DEFINITION. Operand assembly (30_encoding.md R93): what each command reads from the registers and the input buffers. -/

namespace Sys2Proof.Machine

/-- The mechanism that a 2-bit MECH value names; 3 names none (R49). -/
def Mech.ofBits (b : BitVec 2) : Option Mech :=
  match b.toNat with
  | 0 => some .hash
  | 1 => some .hmac
  | 2 => some .ctr
  | _ => none

/-- `personalizationString` (R93): empty when PERS_LEN = 0. -/
def State.persString (s : State) : ByteString := s.bufString .pers s.persLen.toNat

/-- `nonce` (R93): empty when NONCE_LEN = 0. -/
def State.nonceString (s : State) : ByteString := s.bufString .nonce s.nonceLen.toNat

/-- `additionalInput` (R93): present when AIP = 1, possibly empty; absent when AIP = 0, and AI_LEN is then not read. -/
def State.additionalInput (s : State) (aip : Bool) : Option ByteString :=
  if aip then some (s.bufString .ai s.aiLen.toNat) else none

/-- `requestedByteLength` (R93): REQ_LEN as an unsigned integer. -/
def State.requestBytes (s : State) : Nat := s.reqLen.toNat

/-- A length register is above the buffer capacity (R249). -/
def lengthTooLong (c : Config) (len : Word) : Bool := c.maxStrBytes < len.toNat

end Sys2Proof.Machine
end

