-- ==== Sys2Proof/Machine/Commands.lean ====
section
/-! DEFINITION. The lifecycle commands (41_commands.md R132 to R160): NOP, INSTANTIATE, RESEED, GENERATE, UNINSTANTIATE. A
meaning is the command's pseudocode with its completion (R131); a command that needs its entropy fetch and has no answer yet
stays BUSY with the request line asserted. Which command runs, and when, is the sequencer's (log 10). -/

namespace Sys2Proof.Machine

/-! ## Mechanism dispatch -/

/-- `Instantiate[mech](e, nonce, pers)` (R141): the triple-DES variant when `C_IS_TDEA` = 1. -/
def mechInstantiate (c : Config) (m : Mech) (e nonce pers : ByteString) : WorkingState :=
  match m with
  | .hash => hashInstantiate c.prims c e nonce pers
  | .hmac => hmacInstantiate c.prims c e nonce pers
  | .ctr => ctrInstantiate c.prims c c.cIsTdea e nonce pers

/-- `Reseed[mech](ws, e, ai)` (R146). -/
def mechReseed (c : Config) (m : Mech) (tdes : Bool) (ws : WorkingState) (e ai : ByteString) : WorkingState :=
  match m with
  | .hash => hashReseed c.prims c ws e ai
  | .hmac => hmacReseed c.prims ws e ai
  | .ctr => ctrReseed c.prims c tdes ws e ai

/-- `Generate[mech](ws, rc, n, ai)` (R151). -/
def mechGenerate (c : Config) (m : Mech) (tdes : Bool) (ws : WorkingState) (rc n : Nat) (ai : Option ByteString) :
    ByteString × WorkingState :=
  match m with
  | .hash => hashGenerate c.prims c ws rc n ai
  | .hmac => hmacGenerate c.prims c ws n ai
  | .ctr => ctrGenerate c.prims c tdes ws n ai

/-! ## NOP -/

/-- NOP (R132): no effect at all. -/
def execNop (s : State) : Host.Outcome State Fault Refusal := .next s

/-! ## INSTANTIATE -/

/-- INSTANTIATE's checks before the fetch, in the order of R255: the first that fails, or the selected mechanism. -/
def instantiateChecks (s : State) : Except ResultCode Mech :=
  if s.lifecycle ≠ .uninst then .error .wrongState
  else match Mech.ofBits s.mechSel with
    | none => .error .cfgInvalid
    | some mech =>
      if lengthTooLong s.cfg s.persLen || lengthTooLong s.cfg s.nonceLen then .error .inputTooLong
      else if !strengthMechOK s.cfg s.secStrength then .error .cfgStrengthMech
      else if !strengthPrimOK s.cfg s.secStrength mech then .error .cfgStrengthPrim
      else if !capacityOK s.cfg s.secStrength then .error .cfgEntropyCapacity
      else .ok mech

/-- INSTANTIATE's commit (R140) with the fetched entropy `e`. -/
def instantiateCommit (mech : Mech) (e : ByteString) (s : State) : State :=
  { s with
    ws := mechInstantiate s.cfg mech e s.nonceString s.persString
    rc := 1#64, ssL := s.secStrength, mechL := mech
    tdesL := mech == .ctr && s.cfg.cIsTdea
    lifecycle := .ready }

/-- INSTANTIATE (R140). -/
def execInstantiate (s : State) : Host.Outcome State Fault Refusal :=
  match instantiateChecks s with
  | .error code => .next (reject code s)
  | .ok mech =>
    match s.entData with
    | none => .next (awaitEntropy s)
    | some e =>
      if entropyOK e s.secStrength then .next (complete .ok 0#32 (instantiateCommit mech e s))
      else .next (starve s)

/-! ## RESEED -/

/-- RESEED's checks before the fetch, in the order of R255: the first that fails. -/
def reseedChecks (aip : Bool) (s : State) : Option ResultCode :=
  if !s.isReady then some .wrongState
  else if aip && lengthTooLong s.cfg s.aiLen then some .inputTooLong
  else none

/-- RESEED's commit (R145) with the fetched entropy `e`. -/
def reseedCommit (aip : Bool) (e : ByteString) (s : State) : State :=
  { s with
    ws := mechReseed s.cfg s.mechL s.tdesL s.ws e (orEmpty (s.additionalInput aip))
    rc := 1#64 }

/-- RESEED (R145). -/
def execReseed (aip : Bool) (s : State) : Host.Outcome State Fault Refusal :=
  match reseedChecks aip s with
  | some code => .next (reject code s)
  | none =>
    match s.entData with
    | none => .next (awaitEntropy s)
    | some e =>
      if entropyOK e s.ssL then .next (complete .ok 0#32 (reseedCommit aip e s))
      else .next (starve s)

/-! ## GENERATE -/

/-- GENERATE's checks before the fetch, in the order of R255: the first that fails. -/
def generateChecks (aip : Bool) (s : State) : Option ResultCode :=
  if !s.isReady then some .wrongState
  else if aip && lengthTooLong s.cfg s.aiLen then some .inputTooLong
  else if tooLarge s.mechL s.tdesL s.requestBytes then some .requestTooLarge
  else if s.counterPastCeiling then some .reseedRequired
  else none

/-- GENERATE's commit (R150, R154): the generation runs from the working state `w` under the counter `rc` with the additional
input `ai`. -/
def generateCommit (w : WorkingState) (rc : BitVec 64) (ai : Option ByteString) (s : State) : State :=
  let g := mechGenerate s.cfg s.mechL s.tdesL w rc.toNat s.requestBytes ai
  { s with ws := g.2, rc := rc + 1#64, mem := Memory.writeBytes s.mem (Buf.base .out) g.1 }

/-- GENERATE's completion with OK: RESULT is the number of bits generated (R46, R150). -/
def generateDone (w : WorkingState) (rc : BitVec 64) (ai : Option ByteString) (s : State) : State :=
  complete .ok (BitVec.ofNat 32 (8 * s.requestBytes)) (generateCommit w rc ai s)

/-- GENERATE (R150): with PR = 1, an internal reseed with the additional input, then a generation with it absent, under the
counter 1 (R152). -/
def execGenerate (pr aip : Bool) (s : State) : Host.Outcome State Fault Refusal :=
  match generateChecks aip s with
  | some code => .next (reject code s)
  | none =>
    if pr then
      match s.entData with
      | none => .next (awaitEntropy s)
      | some e =>
        if entropyOK e s.ssL then
          .next (generateDone (mechReseed s.cfg s.mechL s.tdesL s.ws e (orEmpty (s.additionalInput aip))) 1#64 none s)
        else .next (starve s)
    else .next (generateDone s.ws s.rc (s.additionalInput aip) s)

/-! ## UNINSTANTIATE -/

/-- UNINSTANTIATE (R160): zeroize and go to UNINST, in every lifecycle state. -/
def execUninstantiate (s : State) : Host.Outcome State Fault Refusal :=
  .next (complete .ok 0#32 { zeroize s with lifecycle := .uninst })

end Sys2Proof.Machine
end

