-- ==== Sys2Proof/Machine/Reserved.lean ====
section
/-! DEFINITION. The reserved opcodes 0x5 to 0xF (30_encoding.md R95, 41_commands.md R134): each completes with ILLEGAL_COMMAND,
in every lifecycle state, with no other change. -/

namespace Sys2Proof.Machine

/-- RESERVED_5, OPCODE 0x5 (R134). -/
def execReserved5 (s : State) : Host.Outcome State Fault Refusal := .next (reject .illegalCommand s)

/-- RESERVED_6, OPCODE 0x6 (R134). -/
def execReserved6 (s : State) : Host.Outcome State Fault Refusal := .next (reject .illegalCommand s)

/-- RESERVED_7, OPCODE 0x7 (R134). -/
def execReserved7 (s : State) : Host.Outcome State Fault Refusal := .next (reject .illegalCommand s)

/-- RESERVED_8, OPCODE 0x8 (R134). -/
def execReserved8 (s : State) : Host.Outcome State Fault Refusal := .next (reject .illegalCommand s)

/-- RESERVED_9, OPCODE 0x9 (R134). -/
def execReserved9 (s : State) : Host.Outcome State Fault Refusal := .next (reject .illegalCommand s)

/-- RESERVED_10, OPCODE 0xA (R134). -/
def execReserved10 (s : State) : Host.Outcome State Fault Refusal := .next (reject .illegalCommand s)

/-- RESERVED_11, OPCODE 0xB (R134). -/
def execReserved11 (s : State) : Host.Outcome State Fault Refusal := .next (reject .illegalCommand s)

/-- RESERVED_12, OPCODE 0xC (R134). -/
def execReserved12 (s : State) : Host.Outcome State Fault Refusal := .next (reject .illegalCommand s)

/-- RESERVED_13, OPCODE 0xD (R134). -/
def execReserved13 (s : State) : Host.Outcome State Fault Refusal := .next (reject .illegalCommand s)

/-- RESERVED_14, OPCODE 0xE (R134). -/
def execReserved14 (s : State) : Host.Outcome State Fault Refusal := .next (reject .illegalCommand s)

/-- RESERVED_15, OPCODE 0xF (R134). -/
def execReserved15 (s : State) : Host.Outcome State Fault Refusal := .next (reject .illegalCommand s)

end Sys2Proof.Machine
end

