-- ==== Sys2Proof/Machine/Sequencer.lean ====
section
/-! DEFINITION. The command sequencer and the events around it (41_commands.md R130 to R133): the host's bus accesses, the
acceptance of a command, the controller's turn, the entropy port, the reset input. -/

namespace Sys2Proof.Machine

/-- A write of CMD (R130): a NOP has its meaning, which is nothing; any other command is dropped while BUSY, else accepted. That
the bus answers a dropped command, or a NOP, with OK is DESIGN CHOICE (log 16). -/
def writeCmd (w : Word) (s : State) : Host.Outcome State Fault Refusal :=
  if decode w = .nop then exec (decode w) s
  else if s.busy then .next (dropCommand s)
  else .next (accept w s)

/-- The address of an access. -/
def BusAccess.addr : BusAccess → Nat
  | .read a _ => a
  | .write a _ _ => a

/-- The width of an access in bytes. -/
def BusAccess.width : BusAccess → Nat
  | .read _ w => w
  | .write _ w _ => w

/-- The ERROR response (R73): a read of that kind returns 0. -/
def BusAccess.errorResponse : BusAccess → BusResponse
  | .read _ _ => .readResp true 0#32
  | .write _ _ _ => .writeResp true

/-- The address lies in the block's 128 KiB (R71). -/
def inSpace (c : Config) (addr : Nat) : Bool := c.drbgBase ≤ addr && addr < c.drbgBase + spaceBytes

/-- The access is 32 bits wide at an offset that is a multiple of 4 (R72). -/
def wellShaped (c : Config) (a : BusAccess) : Bool := a.width = 4 && (a.addr - c.drbgBase) % 4 = 0

/-- An access that the block performs, at the offset `off`, with the response OK. The rules state that response for a reserved
offset only (R74): for an access that takes effect it is DEDUCED from R70 and R73; for a write that is ignored (of a read-only
register or the OUT window; of an argument or an input window while BUSY, R68), a CMD write dropped while BUSY (R130, R252) and a
NOP's CMD write (R132) it is DESIGN CHOICE, unsafe for a claim about the response (log 16). While reset is asserted it has no effect and
a read returns 0 (R270; the OK response is DEDUCED, log 9). -/
def performAccess (off : Nat) (a : BusAccess) (s : State) : Host.Outcome State Fault Refusal :=
  match a with
  | .read _ _ => .next (respond (.readResp false (if s.rst then 0#32 else readTarget s (targetOf off))) s)
  | .write _ _ v =>
    if s.rst then .next (respond (.writeResp false) s)
    else if targetOf off = .reg .cmd then writeCmd v (respond (.writeResp false) s)
    else .next (writeTarget v (respond (.writeResp false) s) (targetOf off))

/-- One bus access of the host (R70 to R74). A misaligned access or one of another width changes no state of the block and the
host receives the ERROR response (R73, R253; log 8); an access outside the block's space does not reach it (log 11). -/
def busAccess (a : BusAccess) (s : State) : Host.Outcome State Fault Refusal :=
  if !inSpace s.cfg a.addr then .fault .outsideBlock
  else if !wellShaped s.cfg a then .next (respond a.errorResponse s)
  else performAccess (a.addr - s.cfg.drbgBase) a s

/-- The entropy source answers (R60): an asserted request takes the answer and is over; an answer to no request, such as one
that arrives after a reset, is ignored (R271). An answer longer than ENT_MAX_BYTES is no answer of this port (log 5). -/
def entropyAnswer (e : ByteString) (s : State) : Host.Outcome State Fault Refusal :=
  if s.cfg.entMaxBytes < e.length then .refused .entropyOverrun
  else if s.entReq && !s.rst then .next { s with entReq := false, entData := some e }
  else .next s

/-- The controller's turn (R131, R290): a BUSY controller performs the latched command; an idle one, or one held in reset,
does nothing. -/
def controllerTurn (s : State) : Host.Outcome State Fault Refusal :=
  if s.rst then .next s
  else match s.phase with
    | .idle => .next s
    | .busy => exec s.cmdL.instr s

/-- The reset input changes (R270): asserting it resets the block at once, also while BUSY (R271). -/
def resetEdge (asserted : Bool) (s : State) : State :=
  if asserted then { s.resetBlock with rst := true } else { s with rst := false }

/-- One event (R16). -/
def handleEvent (ev : Event) (s : State) : Host.Outcome State Fault Refusal :=
  match ev with
  | .access a => busAccess a s
  | .entropy e => entropyAnswer e s
  | .controller => controllerTurn s
  | .reset b => .next (resetEdge b s)

/-- The next event of the environment; with none pending, the controller's turn: an accepted command ends after a finite delay
(R290; log 2). -/
def runEvents (s : State) : Host.Outcome State Fault Refusal :=
  match s.events with
  | [] => controllerTurn s
  | ev :: rest => handleEvent ev { s with events := rest }

/-- The host's write of a command word to CMD. -/
def cmdWrite (c : Config) (w : Word) : Event := .access (.write (c.drbgBase + Reg.offset .cmd) 4 w)

/-- The state in which the very next step runs the command word `w`: a NOP, which is never accepted, is the host's next CMD
write; any other command stands accepted in CMD_L and the controller's turn is next (log 1). -/
def placeCommand (w : Word) (s : State) : State :=
  if decode w = .nop then { s with rst := false, events := cmdWrite s.cfg w :: s.events }
  else
    { accept w s with
      rst := false
      events := match s.events with
        | [] => []
        | evs => .controller :: evs }

end Sys2Proof.Machine
end

