-- ==== Sys2Proof/Machine/Step.lean ====
section
/-! DEFINITION. One step of the machine, and where it fetches a command. -/

namespace Sys2Proof.Machine

/-- One step: the next event. A machine whose configuration is not legal does not start (R7, R259). -/
def step (s : State) : Host.Outcome State Fault Refusal :=
  if s.cfg.legal then runEvents s else .refused .illegalConfig

/-- `s` with the command word of an opcode-table row placed where the next step takes its command (log 1). -/
def State.withFetchWord (s : State) (nbits w : Nat) : State := placeCommand (tableWord nbits w) s

end Sys2Proof.Machine
end

