-- ==== Sys2Proof/Safety.lean ====
section
/-! DEFINITION. What counts as a sound state and a safe run of DRBG-CTL, in the terms the claims use. -/

namespace Sys2Proof.Machine

/-- The working state has the fields and lengths that R20's table gives the mechanism `m`. -/
def WorkingState.shaped (c : Config) (m : Mech) (w : WorkingState) : Prop :=
  match m with
  | .hash => w.V.length = c.seedlen / 8 ∧ w.C.length = c.seedlen / 8 ∧ w.K = [] ∧ w.Key = []
  | .hmac => w.K.length = c.mlen ∧ w.V.length = c.mlen ∧ w.C = [] ∧ w.Key = []
  | .ctr => w.Key.length = c.klen ∧ w.V.length = c.blen ∧ w.C = [] ∧ w.K = []

/-- Two states agree but for the entropy port (`entReq`, `entData`). -/
def State.agreesButPort (t u : State) : Prop := t = { u with entReq := t.entReq, entData := t.entData }

/-- Every piece of the block's state has its reset value (R66). -/
def State.atResetValues (s : State) : Prop :=
  s.lifecycle = .uninst ∧ s.phase = .idle ∧ s.cmdL = ⟨0#4, false, false⟩
  ∧ s.ws.V = [] ∧ s.ws.C = [] ∧ s.ws.K = [] ∧ s.ws.Key = []
  ∧ s.rc = 0#64 ∧ s.ssL = 0#16 ∧ s.mechL = .hash ∧ s.tdesL = false
  ∧ s.mechSel = 0#2 ∧ s.secStrength = 0#16 ∧ s.done = false ∧ s.cmdDropped = false ∧ s.err = .ok
  ∧ s.result = 0#32 ∧ s.reqLen = 0#32 ∧ s.aiLen = 0#32 ∧ s.persLen = 0#32 ∧ s.nonceLen = 0#32
  ∧ s.doneIe = false ∧ (∀ a, Memory.read s.mem a = 0x00#8) ∧ s.entReq = false ∧ s.entData = none

/-- R41's table: the lifecycle state after the command `i` has completed with `code` in the lifecycle state `l`. -/
def lifecycleAfter (fatalSticky : Bool) (l : Lifecycle) (i : Instr) (code : ResultCode) : Lifecycle :=
  if i = .uninstantiate then .uninst
  else match l with
    | .uninst =>
      if i = .instantiate ∧ code = .ok then .ready
      else if i = .instantiate ∧ code = .entropyStarvation ∧ fatalSticky then .error
      else .uninst
    | .ready => if code = .entropyStarvation ∧ fatalSticky then .error else .ready
    | .error => .error

/-- R43's table: the command is legal in the lifecycle state. -/
def legalIn : Instr → Lifecycle → Bool
  | .instantiate, l => l == .uninst
  | .reseed _, l => l == .ready
  | .generate _ _, l => l == .ready
  | _, _ => true

/-- The invariant of the machine. -/
structure State.Inv (s : State) : Prop where
  /-- The configuration is legal (R7). -/
  legal : s.cfg.legal = true
  /-- The memory is in canonical form. -/
  memWf : Memory.wf s.mem
  /-- Only bytes of the four buffers are listed (R50). -/
  memBuffers : ∀ x ∈ s.mem, ∃ (b : Buf) (i : Nat), i < b.size s.cfg ∧ x.1 = b.base + i
  /-- R24, R31, R44: in UNINST and ERROR no secret state is left. -/
  notReady : s.lifecycle ≠ .ready →
    s.ws = WorkingState.zero ∧ s.rc = 0#64 ∧ s.ssL = 0#16 ∧ s.mechL = .hash ∧ s.tdesL = false
    ∧ ∀ i, i < outBytes → Memory.read s.mem (Buf.base .out + i) = 0x00#8
  /-- R20: in READY the working state has its mechanism's shape. -/
  shaped : s.lifecycle = .ready → s.ws.shaped s.cfg s.mechL
  /-- R31: in READY, `1 ≤ RC ≤ RESEED_MAX + 1`. -/
  counter : s.lifecycle = .ready → 1 ≤ s.rc.toNat ∧ s.rc.toNat ≤ reseedMax s.mechL s.tdesL + 1
  /-- R33: TDES_L is `C_IS_TDEA` for CTR, else 0. -/
  tdesFlag : s.lifecycle = .ready → s.tdesL = (s.mechL == .ctr && s.cfg.cIsTdea)
  /-- R122: the latched strength has passed INSTANTIATE's checks. -/
  strength : s.lifecycle = .ready → s.ssL.toNat ≤ s.cfg.mechMaxStrength
    ∧ s.ssL.toNat ≤ primMax s.cfg s.mechL ∧ s.ssL.toNat ≤ s.cfg.entSizeBits.toNat
  /-- R60: the entropy port is used only while a command is BUSY. -/
  idlePort : s.phase = .idle → s.entReq = false ∧ s.entData = none
  /-- R130: DONE is 0 while BUSY. -/
  busyDone : s.phase = .busy → s.done = false
  /-- R96: a NOP is never latched. -/
  busyCommand : s.phase = .busy → s.cmdL.instr ≠ .nop
  /-- R60: no answer is longer than ENT_MAX_BYTES. -/
  answerBound : ∀ e, s.entData = some e → e.length ≤ s.cfg.entMaxBytes
  /-- R46, R242: RESULT as the last completion's code has it. -/
  resultWord : (s.err ≠ .ok → s.result = rejectResult s.err) ∧ (s.err = .ok → s.result.toNat ≤ maxReqBitsStd)
  /-- R270: while reset is asserted, the block is at its reset values. -/
  heldInReset : s.rst = true → s = s.resetBlock

/-- The environment's event is one the block can meet: an access that reaches it (R71), an answer the port can deliver (R60). -/
def Event.admissible (c : Config) : Event → Bool
  | .access a => inSpace c a.addr
  | .entropy e => e.length ≤ c.entMaxBytes
  | .controller => true
  | .reset _ => true

/-- A run from this state is safe: the configuration is legal and every pending event is admissible. -/
def State.safe (s : State) : Prop := s.cfg.legal = true ∧ ∀ ev ∈ s.events, ev.admissible s.cfg = true

/-- `k` executions of the command `i` one after the other; the first outcome that is no next state ends them. -/
def execTimes (i : Instr) : (k : Nat) → State → Host.Outcome State Fault Refusal
  | 0, s => .next s
  | k + 1, s =>
    match exec i s with
    | .next t => execTimes i k t
    | .fault r => .fault r
    | .refused r => .refused r

end Sys2Proof.Machine
end

