-- ==== Sys2Proof/Certificates/Slice0/Obligations.lean ====
section
/-! DEFINITION. The statements for the provers. Each docstring names the rule of spec/ it formalises, and, where a clause rests
on a choice of the model or on an inference that the spec marks as its own, the log entry or the spec's mark. `busResp` and
`events` are the model's own fields (logs 1, 2, 8): "nothing else changes" leaves the response of the access aside. Where a
statement gives the response OK to an access that R74 does not name, that response is the model's (log 16). -/

open Sys2Proof Sys2Proof.Machine

/-! ## Encoding (30_encoding.md) -/

/-- Decoding the word a command is encoded as gives the command back (R90 to R98). -/
def Obligations.DecodeOfEncode : Prop :=
  ∀ i : Instr, i.wf = true → decode (encode i) = i

/-- Decode and encode agree on every word: a word decodes to `i` exactly when the bits that R93 says `i` uses are those of
`encode i`; no other bit matters (R94). -/
def Obligations.DecodeIffUsedBitsMatch : Prop :=
  ∀ (i : Instr) (w : Word), decode w = i ↔ w &&& i.usedBits = encode i

/-- R97's decoder, row by row. -/
def Obligations.DecoderFollowsTable : Prop :=
  ∀ w : Word,
    (w.extractLsb' 0 4 = 0x0#4 → decode w = .nop)
    ∧ (w.extractLsb' 0 4 = 0x1#4 → decode w = .instantiate)
    ∧ (w.extractLsb' 0 4 = 0x2#4 → decode w = .reseed (w.getLsbD 9))
    ∧ (w.extractLsb' 0 4 = 0x3#4 → decode w = .generate (w.getLsbD 8) (w.getLsbD 9))
    ∧ (w.extractLsb' 0 4 = 0x4#4 → decode w = .uninstantiate)
    ∧ (w.extractLsb' 0 4 = 0x5#4 → decode w = .reserved5)
    ∧ (w.extractLsb' 0 4 = 0x6#4 → decode w = .reserved6)
    ∧ (w.extractLsb' 0 4 = 0x7#4 → decode w = .reserved7)
    ∧ (w.extractLsb' 0 4 = 0x8#4 → decode w = .reserved8)
    ∧ (w.extractLsb' 0 4 = 0x9#4 → decode w = .reserved9)
    ∧ (w.extractLsb' 0 4 = 0xA#4 → decode w = .reserved10)
    ∧ (w.extractLsb' 0 4 = 0xB#4 → decode w = .reserved11)
    ∧ (w.extractLsb' 0 4 = 0xC#4 → decode w = .reserved12)
    ∧ (w.extractLsb' 0 4 = 0xD#4 → decode w = .reserved13)
    ∧ (w.extractLsb' 0 4 = 0xE#4 → decode w = .reserved14)
    ∧ (w.extractLsb' 0 4 = 0xF#4 → decode w = .reserved15)

/-- Words of 95_test_vectors.md section 2.2 decode to the commands the table names. -/
def Obligations.SpecWordsDecode : Prop :=
  decode 0x00000300#32 = .nop ∧ decode 0x00000301#32 = .instantiate ∧ decode 0x00000102#32 = .reseed false
  ∧ decode 0x00000202#32 = .reseed true ∧ decode 0xFFFFFCF3#32 = .generate false false
  ∧ decode 0x00000213#32 = .generate false true ∧ decode 0x00000303#32 = .generate true true
  ∧ decode 0x00000004#32 = .uninstantiate ∧ decode 0x80000005#32 = .reserved5 ∧ decode 0x0000010F#32 = .reserved15

/-! ## Reset and configuration -/

/-- R66: the machine after reset. -/
def Obligations.ResetStateValues : Prop :=
  State.reset.atResetValues ∧ State.reset.irq = false
  ∧ ∀ r : Reg, readReg State.reset r = if r = .id then 0x44524247#32 else 0#32

/-- R270, R271: from any state, also while BUSY, a reset leaves the reset values; an entropy answer after it is ignored.
That these are events of one list, one a step, is the model's (log 1). -/
def Obligations.ResetFromAnyState : Prop :=
  ∀ (s : State) (e : ByteString) (rest : List Event), s.cfg.legal = true → e.length ≤ s.cfg.entMaxBytes →
    ∃ t : State,
      Host.Core.run Sys2Proof.core 3 { s with events := .reset true :: .reset false :: .entropy e :: rest } = .next t
      ∧ t.atResetValues ∧ t.rst = false ∧ t.cfg = s.cfg ∧ t.events = rest

/-- R270: while reset is asserted a bus access has no effect and a read returns 0. -/
def Obligations.AccessesWhileResetHeld : Prop :=
  ∀ (s : State) (a : BusAccess), s.rst = true → inSpace s.cfg a.addr = true →
    ∃ t, busAccess a s = .next t ∧ t = { s with busResp := t.busResp }
      ∧ ∀ addr w, a = .read addr w → ∃ er, t.busResp = some (.readResp er 0#32)

/-- R7 (which the spec marks as derived, and the 16-byte block as general knowledge): a configuration that breaks one of the
rule's conditions is refused. That the step is what refuses it, and that it refuses alike a configuration outside R6's ranges or
with a length of more than R13's 32 bits, is deduced (log 6). -/
def Obligations.IllegalConfigRefused : Prop :=
  ∀ s : State,
    (s.cfg.seedlen % 8 ≠ 0 ∨ s.cfg.seedlen < 8 ∨ 255 < ceilDiv s.cfg.seedlen (8 * s.cfg.hlen)
      ∨ (s.cfg.cIsTdea = true ∧ ¬(s.cfg.blen = 8 ∧ s.cfg.klen = 21))
      ∨ (s.cfg.cIsTdea = false ∧ s.cfg.blen ≠ 16) ∨ 32 < s.cfg.klen
      ∨ s.cfg.hlen = 0 ∨ s.cfg.mlen = 0 ∨ s.cfg.klen = 0 ∨ 1024 < s.cfg.maxStrBytes
      ∨ 2 ^ 32 ≤ s.cfg.seedlen ∨ 2 ^ 32 ≤ s.cfg.hlen ∨ 2 ^ 32 ≤ s.cfg.mlen ∨ 2 ^ 32 ≤ s.cfg.entMaxBytes) →
    step s = .refused .illegalConfig

/-! ## Register bus (20_memory.md, 10_state.md) -/

/-- R253: an access of another width or alignment gets the ERROR response and has no effect on the block. -/
def Obligations.BusErrorHasNoEffect : Prop :=
  ∀ (s : State) (a : BusAccess), inSpace s.cfg a.addr = true →
    (a.width ≠ 4 ∨ (a.addr - s.cfg.drbgBase) % 4 ≠ 0) →
    ∃ t, busAccess a s = .next t ∧ t = { s with busResp := t.busResp }
      ∧ ((∃ addr w, a = .read addr w ∧ t.busResp = some (.readResp true 0#32))
        ∨ (∃ addr w v, a = .write addr w v ∧ t.busResp = some (.writeResp true)))

/-- R74: reserved offsets, and window offsets at or above the implemented size, read 0 and ignore writes. -/
def Obligations.ReservedOffsetsReadZeroIgnoreWrites : Prop :=
  ∀ (s : State) (off : Nat) (v : Word), s.rst = false → off % 4 = 0 →
    ((0x04C ≤ off ∧ off < 0x400) ∨ (0x1000 ≤ off ∧ off < 0x10000)
      ∨ (0x400 + s.cfg.maxStrBytes ≤ off ∧ off < 0x800) ∨ (0x800 + s.cfg.maxStrBytes ≤ off ∧ off < 0xC00)
      ∨ (0xC00 + s.cfg.maxStrBytes ≤ off ∧ off < 0x1000)) →
    busAccess (.read (s.cfg.drbgBase + off) 4) s = .next { s with busResp := some (.readResp false 0#32) }
    ∧ busAccess (.write (s.cfg.drbgBase + off) 4 v) s = .next { s with busResp := some (.writeResp false) }

/-- R47: a read of each register, at the offset of the rule's table, answers the register's value; ID, CMD and the counter's
halves (R48, R52, R56). The OK response is deduced (log 16). -/
def Obligations.RegisterReadsAnswer : Prop :=
  (∀ s : State, s.rst = false →
    ∀ p ∈ [(0x000, Reg.id), (0x004, .config), (0x008, .secStrength), (0x00C, .cmd), (0x010, .status), (0x014, .result),
        (0x018, .reqLen), (0x01C, .aiLen), (0x020, .persLen), (0x024, .nonceLen), (0x028, .reseedCtrLo),
        (0x02C, .reseedCtrHi), (0x030, .blockSizeBits), (0x034, .seedlenBits), (0x038, .maxReqBits),
        (0x03C, .reseedMaxLo), (0x040, .reseedMaxHi), (0x044, .strengthL), (0x048, .intEn)],
      busAccess (.read (s.cfg.drbgBase + p.1) 4) s
        = .next { s with busResp := some (.readResp false (readReg s p.2)) })
  ∧ ∀ s : State, readReg s .id = 0x44524247#32 ∧ readReg s .cmd = 0#32
    ∧ readReg s .reseedCtrHi ++ readReg s .reseedCtrLo = s.rc
    ∧ readReg s .result = s.result ∧ readReg s .reqLen = s.reqLen ∧ readReg s .aiLen = s.aiLen
    ∧ readReg s .persLen = s.persLen ∧ readReg s .nonceLen = s.nonceLen
    ∧ (readReg s .config).toNat = s.mechSel.toNat ∧ (readReg s .secStrength).toNat = s.secStrength.toNat
    ∧ (readReg s .intEn).toNat = s.doneIe.toNat

/-- R57 (which the spec marks as derived from R121, R178, R194, R219): the informational registers. In a legal
configuration SEEDLEN_BITS always fits (R13), and so does BLOCK_SIZE_BITS of CTR. For an `8 * HLEN` or `8 * MLEN` of more than 32
bits the spec states no value: the model reads a free value there (log 19), of which this says nothing. -/
def Obligations.InformationalRegisters : Prop :=
  ∀ s : State,
    (s.cfg.legal = true →
      s.cfg.seedlen < 2 ^ 32 ∧ 8 * (s.cfg.klen + s.cfg.blen) < 2 ^ 32 ∧ 8 * s.cfg.blen < 2 ^ 32)
    ∧ (s.lifecycle ≠ .ready →
      readReg s .blockSizeBits = 0#32 ∧ readReg s .seedlenBits = 0#32 ∧ readReg s .maxReqBits = 0#32
      ∧ readReg s .reseedMaxHi = 0#32 ∧ readReg s .reseedMaxLo = 0#32 ∧ readReg s .strengthL = 0#32)
    ∧ (s.lifecycle = .ready →
      (readReg s .strengthL).toNat = s.ssL.toNat
      ∧ (s.mechL = .hash →
        (8 * s.cfg.hlen < 2 ^ 32 → (readReg s .blockSizeBits).toNat = 8 * s.cfg.hlen)
        ∧ (s.cfg.seedlen < 2 ^ 32 → (readReg s .seedlenBits).toNat = s.cfg.seedlen)
        ∧ readReg s .maxReqBits = 0x00080000#32
        ∧ readReg s .reseedMaxHi = 0x00010000#32 ∧ readReg s .reseedMaxLo = 0#32)
      ∧ (s.mechL = .hmac →
        (8 * s.cfg.mlen < 2 ^ 32 → (readReg s .blockSizeBits).toNat = 8 * s.cfg.mlen)
        ∧ readReg s .seedlenBits = 0#32
        ∧ readReg s .maxReqBits = 0x00080000#32
        ∧ readReg s .reseedMaxHi = 0x00010000#32 ∧ readReg s .reseedMaxLo = 0#32)
      ∧ (s.mechL = .ctr → s.tdesL = false →
        (8 * s.cfg.blen < 2 ^ 32 → (readReg s .blockSizeBits).toNat = 8 * s.cfg.blen)
        ∧ (8 * (s.cfg.klen + s.cfg.blen) < 2 ^ 32 → (readReg s .seedlenBits).toNat = 8 * (s.cfg.klen + s.cfg.blen))
        ∧ readReg s .maxReqBits = 0x00080000#32
        ∧ readReg s .reseedMaxHi = 0x00010000#32 ∧ readReg s .reseedMaxLo = 0#32)
      ∧ (s.mechL = .ctr → s.tdesL = true →
        readReg s .blockSizeBits = 64#32 ∧ readReg s .seedlenBits = 232#32
        ∧ readReg s .maxReqBits = 0x00002000#32
        ∧ readReg s .reseedMaxHi = 0x00000001#32 ∧ readReg s .reseedMaxLo = 0#32))

/-- R45: the fields of the STATUS word, with the numbers of STATE (R40), MECH_L (R33, R49) and ERR (R240), and the mechanism
that each value of CONFIG.MECH selects (R49). -/
def Obligations.StatusWordLayout : Prop :=
  (∀ s : State,
    (∀ p ∈ [(Lifecycle.uninst, 0#2), (.ready, 1#2), (.error, 2#2)],
      (readReg s .status).extractLsb' 0 2 = p.2 ↔ s.lifecycle = p.1)
    ∧ ((readReg s .status).getLsbD 2 = true ↔ s.phase = .busy)
    ∧ (readReg s .status).getLsbD 3 = s.done
    ∧ ((readReg s .status).getLsbD 4 = true ↔ (s.lifecycle = .ready ∧ reseedMax s.mechL s.tdesL < s.rc.toNat))
    ∧ (∀ p ∈ [(Mech.hash, 0#2), (.hmac, 1#2), (.ctr, 2#2)], (readReg s .status).extractLsb' 5 2 = p.2 ↔ s.mechL = p.1)
    ∧ (readReg s .status).getLsbD 7 = s.tdesL
    ∧ (∀ p ∈ [(ResultCode.ok, 0#4), (.reseedRequired, 1#4), (.requestTooLarge, 2#4), (.entropyStarvation, 3#4),
        (.cfgStrengthMech, 4#4), (.cfgStrengthPrim, 5#4), (.cfgEntropyCapacity, 6#4), (.cfgInvalid, 7#4),
        (.inputTooLong, 8#4), (.wrongState, 9#4), (.illegalCommand, 10#4)],
      (readReg s .status).extractLsb' 8 4 = p.2 ↔ s.err = p.1)
    ∧ (readReg s .status).getLsbD 12 = s.cmdDropped
    ∧ (readReg s .status).extractLsb' 13 19 = 0#19)
  ∧ (∀ p ∈ [(Mech.hash, 0#2), (.hmac, 1#2), (.ctr, 2#2)], p.1.code = p.2 ∧ Mech.ofBits p.2 = some p.1)
  ∧ Mech.ofBits 3#2 = none

/-- R45, R47, R49, R51, R54, R55, R58: register writes while no command is BUSY. The OK response is deduced (log 16). -/
def Obligations.RegisterWritesWhileIdle : Prop :=
  ∀ (s : State) (v : Word), s.rst = false → s.phase = .idle →
    busAccess (.write (s.cfg.drbgBase + 0x004) 4 v) s
      = .next { s with mechSel := v.extractLsb' 0 2, busResp := some (.writeResp false) }
    ∧ busAccess (.write (s.cfg.drbgBase + 0x008) 4 v) s
      = .next { s with secStrength := v.extractLsb' 0 16, busResp := some (.writeResp false) }
    ∧ busAccess (.write (s.cfg.drbgBase + 0x018) 4 v) s = .next { s with reqLen := v, busResp := some (.writeResp false) }
    ∧ busAccess (.write (s.cfg.drbgBase + 0x01C) 4 v) s = .next { s with aiLen := v, busResp := some (.writeResp false) }
    ∧ busAccess (.write (s.cfg.drbgBase + 0x020) 4 v) s = .next { s with persLen := v, busResp := some (.writeResp false) }
    ∧ busAccess (.write (s.cfg.drbgBase + 0x024) 4 v) s = .next { s with nonceLen := v, busResp := some (.writeResp false) }
    ∧ busAccess (.write (s.cfg.drbgBase + 0x010) 4 v) s
      = .next { s with done := s.done && !v.getLsbD 3, cmdDropped := s.cmdDropped && !v.getLsbD 12,
                       busResp := some (.writeResp false) }
    ∧ busAccess (.write (s.cfg.drbgBase + 0x048) 4 v) s
      = .next { s with doneIe := v.getLsbD 0, busResp := some (.writeResp false) }

/-- R68: while BUSY, argument and window writes are ignored; STATUS and INT_EN writes take effect; CMD is R130's. That the ignored
writes and the dropped command get the OK response (`writeResp false`) is the model's choice (log 16, unsafe): R68, R130 and R252
state none. -/
def Obligations.WritesWhileBusy : Prop :=
  ∀ (s : State) (v : Word), s.rst = false → s.phase = .busy →
    (∀ off ∈ [0x004, 0x008, 0x018, 0x01C, 0x020, 0x024],
      busAccess (.write (s.cfg.drbgBase + off) 4 v) s = .next { s with busResp := some (.writeResp false) })
    ∧ (∀ off, 0x400 ≤ off → off < 0x1000 → off % 4 = 0 →
      busAccess (.write (s.cfg.drbgBase + off) 4 v) s = .next { s with busResp := some (.writeResp false) })
    ∧ busAccess (.write (s.cfg.drbgBase + 0x010) 4 v) s
      = .next { s with done := s.done && !v.getLsbD 3, cmdDropped := s.cmdDropped && !v.getLsbD 12,
                       busResp := some (.writeResp false) }
    ∧ busAccess (.write (s.cfg.drbgBase + 0x048) 4 v) s
      = .next { s with doneIe := v.getLsbD 0, busResp := some (.writeResp false) }
    ∧ busAccess (.write (s.cfg.drbgBase + 0x00C) 4 v) s
      = (if decode v = .nop then .next { s with busResp := some (.writeResp false) }
         else .next { s with cmdDropped := true, busResp := some (.writeResp false) })

/-- R47, R78: the RO registers and the OUT window ignore writes. That such a write gets the OK response (`writeResp false`) is the
model's choice (log 16, unsafe): R47 does not state the response. -/
def Obligations.ReadOnlyIgnoresWrites : Prop :=
  ∀ (s : State) (v : Word), s.rst = false →
    (∀ off ∈ [0x000, 0x014, 0x028, 0x02C, 0x030, 0x034, 0x038, 0x03C, 0x040, 0x044],
      busAccess (.write (s.cfg.drbgBase + off) 4 v) s = .next { s with busResp := some (.writeResp false) })
    ∧ (∀ off, 0x10000 ≤ off → off < 0x20000 → off % 4 = 0 →
      busAccess (.write (s.cfg.drbgBase + off) 4 v) s = .next { s with busResp := some (.writeResp false) })

/-- R77, R78: a write of an input window stores the word's bytes in little-endian lanes, below the buffer's size, and changes
no other byte and nothing else. The OK response is deduced (log 16). -/
def Obligations.WindowWriteStoresLanes : Prop :=
  ∀ (s : State) (b : Buf) (j : Nat) (v : Word), s.rst = false → s.phase = .idle → b ≠ .out →
    s.cfg.maxStrBytes ≤ 1024 → 4 * j < s.cfg.maxStrBytes →
    ∃ t, busAccess (.write (s.cfg.drbgBase + (b.base + 4 * j)) 4 v) s = .next t
      ∧ t = { s with mem := t.mem, busResp := some (.writeResp false) }
      ∧ (∀ k, k < 4 → 4 * j + k < s.cfg.maxStrBytes →
          Memory.read t.mem (b.base + (4 * j + k)) = v.extractLsb' (8 * k) 8)
      ∧ ∀ a, ¬(b.base + 4 * j ≤ a ∧ a < b.base + 4 * j + 4 ∧ a < b.base + s.cfg.maxStrBytes) →
          Memory.read t.mem a = Memory.read s.mem a

/-- R77, R78: a read of a window answers the buffer's bytes in little-endian lanes, 0 at or above the buffer's size, and has no
effect. The OK response is deduced (log 16). -/
def Obligations.WindowReadAnswersLanes : Prop :=
  ∀ (s : State) (b : Buf) (j : Nat), s.rst = false → s.cfg.maxStrBytes ≤ 1024 → 4 * j < b.size s.cfg →
    ∃ w : Word, busAccess (.read (s.cfg.drbgBase + (b.base + 4 * j)) 4) s
        = .next { s with busResp := some (.readResp false w) }
      ∧ ∀ k, k < 4 → w.extractLsb' (8 * k) 8
          = if 4 * j + k < b.size s.cfg then Memory.read s.mem (b.base + (4 * j + k)) else 0x00#8

/-- R93: the operand strings are the first bytes of the buffers, as many as the length registers say; AIP says whether the
additional input is present. -/
def Obligations.OperandStrings : Prop :=
  ∀ s : State,
    s.persString.length = s.persLen.toNat ∧ s.nonceString.length = s.nonceLen.toNat
    ∧ (∀ i, i < s.persLen.toNat → s.persString.getD i 0x00#8 = Memory.read s.mem (0x400 + i))
    ∧ (∀ i, i < s.nonceLen.toNat → s.nonceString.getD i 0x00#8 = Memory.read s.mem (0x800 + i))
    ∧ s.additionalInput false = none
    ∧ ∃ a : ByteString, s.additionalInput true = some a ∧ a.length = s.aiLen.toNat
      ∧ ∀ i, i < s.aiLen.toNat → a.getD i 0x00#8 = Memory.read s.mem (0xC00 + i)

/-- R80: a read changes nothing of the block, and the same read again returns the same value. -/
def Obligations.ReadsHaveNoSideEffect : Prop :=
  ∀ (s : State) (addr w : Nat), inSpace s.cfg addr = true →
    ∃ t, busAccess (.read addr w) s = .next t ∧ t = { s with busResp := t.busResp } ∧ busAccess (.read addr w) t = .next t

/-- R53: no access reads or writes the working state or the fetched entropy: with other values there, every access answers
and does the same, and leaves them as they are. -/
def Obligations.HiddenStateHasNoAddress : Prop :=
  ∀ (s t : State) (a : BusAccess) (ws' : WorkingState) (d : Option ByteString), busAccess a s = .next t →
    t.ws = s.ws ∧ t.entData = s.entData
    ∧ busAccess a { s with ws := ws', entData := d } = .next { t with ws := ws', entData := d }

/-! ## Sequencing (41_commands.md) -/

/-- R130: what a write of CMD does. That a dropped command and a NOP get the OK response is the model's choice (log 16, unsafe), and
that an accepted one gets it is deduced (log 16): R130 states none. -/
def Obligations.CmdWriteAcceptance : Prop :=
  ∀ (s : State) (w : Word), s.rst = false →
    busAccess (.write (s.cfg.drbgBase + 0x00C) 4 w) s
      = .next (if decode w = .nop then { s with busResp := some (.writeResp false) }
        else if s.phase = .busy then { s with cmdDropped := true, busResp := some (.writeResp false) }
        else { s with phase := .busy, cmdL := ⟨w.extractLsb' 0 4, w.getLsbD 8, w.getLsbD 9⟩, done := false,
                      busResp := some (.writeResp false) })

/-- R132: a NOP does nothing, in any phase; its CMD write changes nothing either. That this write gets the OK response is the model's
choice (log 16, unsafe). -/
def Obligations.NopHasNoEffect : Prop :=
  (∀ s : State, exec .nop s = .next s)
  ∧ ∀ (s : State) (w : Word), w.extractLsb' 0 4 = 0#4 → s.rst = false →
    busAccess (.write (s.cfg.drbgBase + 0x00C) 4 w) s = .next { s with busResp := some (.writeResp false) }

/-- A step runs the decoded command: the controller's turn runs the command latched in CMD_L, with its event consumed, or with
none pending; a NOP runs at its CMD write; a placed command word is what the next step runs; and a step whose event is a bus
access of the host makes exactly that access (R16, R70, R82), with the event consumed. The controller's turn of a block that is
idle or held in reset does nothing (R130, R131, R270; that there is such a turn is the model's, log 2). R16, R130, R131; the list
of events is the model's (logs 1, 2, 10), and so is the OK response of the CMD write (log 16). -/
def Obligations.StepRunsDecodedCommand : Prop :=
  (∀ (s : State) (i : Instr) (rest : List Event), s.cfg.legal = true → s.rst = false → s.phase = .busy →
    decodeFields s.cmdL.opcode s.cmdL.pr s.cmdL.aip = i → s.events = .controller :: rest →
    step s = exec i { s with events := rest })
  ∧ (∀ (s : State) (i : Instr), s.cfg.legal = true → s.rst = false → s.phase = .busy →
    decodeFields s.cmdL.opcode s.cmdL.pr s.cmdL.aip = i → s.events = [] → step s = exec i s)
  ∧ (∀ (s : State) (w : Word) (rest : List Event), s.cfg.legal = true → s.rst = false → decode w = .nop →
    s.events = cmdWrite s.cfg w :: rest →
    step s = exec (decode w) { s with events := rest, busResp := some (.writeResp false) })
  ∧ (∀ (s : State) (w : Word), s.cfg.legal = true → decode w ≠ .nop → s.events = [] →
    step (s.withFetchWord 32 w.toNat) = exec (decode w) (s.withFetchWord 32 w.toNat))
  ∧ (∀ (s : State) (a : BusAccess) (rest : List Event), s.cfg.legal = true → s.events = .access a :: rest →
    step s = busAccess a { s with events := rest })
  ∧ (∀ (s : State) (rest : List Event), s.cfg.legal = true → (s.phase = .idle ∨ s.rst = true) →
    (s.events = .controller :: rest ∨ (s.events = [] ∧ rest = [])) → step s = .next { s with events := rest })

/-- R16, R130, R131: an accepted command is acceptance, then completion at the controller's turn (an event of the model's list,
logs 1, 2). The OK response is deduced (log 16). -/
def Obligations.AcceptThenComplete : Prop :=
  ∀ (s : State) (w : Word) (rest : List Event), s.cfg.legal = true → s.rst = false → s.phase = .idle →
    decode w ≠ .nop →
    Host.Core.run Sys2Proof.core 2 { s with events := cmdWrite s.cfg w :: .controller :: rest }
      = exec (decode w) { s with
          events := rest, busResp := some (.writeResp false), phase := .busy, done := false
          cmdL := ⟨w.extractLsb' 0 4, w.getLsbD 8, w.getLsbD 9⟩ }

/-- R133 (which the spec marks as derived from R131 and R68): while a command stays BUSY, no step changes what it reads. -/
def Obligations.ArgumentStability : Prop :=
  ∀ s t : State, s.phase = .busy → step s = .next t → t.phase = .busy →
    t.cfg = s.cfg ∧ t.cmdL = s.cmdL ∧ t.lifecycle = s.lifecycle ∧ t.ws = s.ws ∧ t.rc = s.rc ∧ t.ssL = s.ssL
    ∧ t.mechL = s.mechL ∧ t.tdesL = s.tdesL ∧ t.mechSel = s.mechSel ∧ t.secStrength = s.secStrength
    ∧ t.reqLen = s.reqLen ∧ t.aiLen = s.aiLen ∧ t.persLen = s.persLen ∧ t.nonceLen = s.nonceLen ∧ t.mem = s.mem

/-- R85, R133: a bus access between a command's acceptance and its completion does not change what the command does: the
completion after the access is the completion without it, with the access's own effects on CMD_DROPPED and DONE_IE and its
response. -/
def Obligations.BusyAccessesCommuteWithCommand : Prop :=
  ∀ (s s' t : State) (a : BusAccess) (i : Instr), s.phase = .busy → busAccess a s = .next s' → exec i s = .next t →
    ∃ t', exec i s' = .next t'
      ∧ t' = { t with cmdDropped := s'.cmdDropped, doneIe := s'.doneIe, busResp := s'.busResp, done := t'.done }
      ∧ (t.phase = .idle → t'.done = true)

/-- R252: CMD_DROPPED stays 1 until a write of STATUS with bit 12, or reset. -/
def Obligations.DroppedFlagStays : Prop :=
  ∀ s t : State, s.cmdDropped = true → step s = .next t →
    t.cmdDropped = true ∨ s.events.head? = some (.reset true)
    ∨ ∃ v : Word, v.getLsbD 12 = true ∧ s.events.head? = some (.access (.write (s.cfg.drbgBase + 0x010) 4 v))

/-- R131, R56, R273: the results, the counter, the latched fields, the working state and the output buffer change only when a
BUSY command completes, or at reset. -/
def Obligations.ResultsChangeOnlyAtCompletion : Prop :=
  ∀ s t : State, step s = .next t →
    (s.phase = .busy ∧ t.phase = .idle) ∨ s.events.head? = some (.reset true)
    ∨ (t.lifecycle = s.lifecycle ∧ t.ws = s.ws ∧ t.rc = s.rc ∧ t.ssL = s.ssL ∧ t.mechL = s.mechL ∧ t.tdesL = s.tdesL
      ∧ t.err = s.err ∧ t.result = s.result
      ∧ ∀ a, 0x10000 ≤ a → Memory.read t.mem a = Memory.read s.mem a)

/-- R41: the lifecycle state changes at the completion of a command, as the rule's table says, or at reset, and at no other
step. -/
def Obligations.LifecycleTransitions : Prop :=
  ∀ s t : State, step s = .next t →
    (s.phase = .busy ∧ t.phase = .idle ∧ s.events.head? ≠ some (.reset true)
      ∧ t.lifecycle = lifecycleAfter s.cfg.fatalSticky s.lifecycle s.cmdL.instr t.err)
    ∨ (s.events.head? = some (.reset true) ∧ t.lifecycle = .uninst)
    ∨ (¬(s.phase = .busy ∧ t.phase = .idle) ∧ t.lifecycle = s.lifecycle)

/-- R43: a command that is not legal in the lifecycle state completes with WRONG_STATE and changes nothing else; a reserved
opcode completes with ILLEGAL_COMMAND in every state; a legal command never completes with WRONG_STATE. -/
def Obligations.LegalCommandsByState : Prop :=
  ∀ (i : Instr) (s : State),
    (legalIn i s.lifecycle = false →
      ∃ t, exec i s = .next t ∧ t.agreesButPort
        { s with err := .wrongState, result := 0#32, phase := .idle, done := true })
    ∧ (legalIn i s.lifecycle = true → ∀ t, exec i s = .next t →
        t = { s with entReq := t.entReq } ∨ t.err ≠ .wrongState)
    ∧ (0x5#4 ≤ i.opcode → ∃ t, exec i s = .next t ∧ t.err = .illegalCommand)

/-! ## Commands -/

/-- R134: every reserved opcode completes with ILLEGAL_COMMAND and changes nothing else. -/
def Obligations.ReservedOpcodesComplete : Prop :=
  ∀ s : State, ∀ i ∈ [Instr.reserved5, .reserved6, .reserved7, .reserved8, .reserved9, .reserved10, .reserved11,
      .reserved12, .reserved13, .reserved14, .reserved15],
    ∃ t, exec i s = .next t ∧ t.agreesButPort
      { s with err := .illegalCommand, result := 0#32, phase := .idle, done := true }

/-- R140: INSTANTIATE in UNINST with every check passed and a sufficient fetch: its whole effect. -/
def Obligations.InstantiateSucceeds : Prop :=
  ∀ (s : State) (m : Mech) (e : ByteString), s.lifecycle = .uninst → s.mechSel = m.code →
    s.persLen.toNat ≤ s.cfg.maxStrBytes → s.nonceLen.toNat ≤ s.cfg.maxStrBytes →
    s.secStrength.toNat ≤ s.cfg.mechMaxStrength → s.secStrength.toNat ≤ primMax s.cfg m →
    s.secStrength.toNat ≤ s.cfg.entSizeBits.toNat → s.entData = some e → s.secStrength.toNat ≤ 8 * e.length →
    ∃ t, exec .instantiate s = .next t ∧ t.agreesButPort
      { s with
        ws := mechInstantiate s.cfg m e (Memory.readBytes s.mem 0x800 s.nonceLen.toNat)
          (Memory.readBytes s.mem 0x400 s.persLen.toNat)
        rc := 1#64, ssL := s.secStrength, mechL := m, tdesL := (m == .ctr && s.cfg.cIsTdea), lifecycle := .ready
        err := .ok, result := 0#32, phase := .idle, done := true }

/-- R255, R140: INSTANTIATE reports its first failing check, asserts no fetch, and changes nothing else. That the port is idle
after a completion is deduced (log 5). -/
def Obligations.InstantiateCheckOrder : Prop :=
  ∀ s : State,
    let rejects (code : ResultCode) : Prop :=
      ∃ t, exec .instantiate s = .next t ∧ t.entReq = false ∧ t.agreesButPort
        { s with err := code, result := 0#32, phase := .idle, done := true }
    (s.lifecycle ≠ .uninst → rejects .wrongState)
    ∧ (s.lifecycle = .uninst → s.mechSel = 3#2 → rejects .cfgInvalid)
    ∧ ∀ m : Mech, s.lifecycle = .uninst → s.mechSel = m.code →
      ((s.cfg.maxStrBytes < s.persLen.toNat ∨ s.cfg.maxStrBytes < s.nonceLen.toNat) → rejects .inputTooLong)
      ∧ (s.persLen.toNat ≤ s.cfg.maxStrBytes → s.nonceLen.toNat ≤ s.cfg.maxStrBytes →
        (s.cfg.mechMaxStrength < s.secStrength.toNat → rejects .cfgStrengthMech)
        ∧ (s.secStrength.toNat ≤ s.cfg.mechMaxStrength →
          (primMax s.cfg m < s.secStrength.toNat → rejects .cfgStrengthPrim)
          ∧ (s.secStrength.toNat ≤ primMax s.cfg m → s.cfg.entSizeBits.toNat < s.secStrength.toNat →
            rejects .cfgEntropyCapacity)))

/-- R145: RESEED in READY with a sufficient fetch: its whole effect. The additional input is the empty string when absent. -/
def Obligations.ReseedSucceeds : Prop :=
  ∀ (s : State) (aip : Bool) (e : ByteString), s.lifecycle = .ready →
    (aip = true → s.aiLen.toNat ≤ s.cfg.maxStrBytes) → s.entData = some e → s.ssL.toNat ≤ 8 * e.length →
    ∃ t, exec (.reseed aip) s = .next t ∧ t.agreesButPort
      { s with
        ws := mechReseed s.cfg s.mechL s.tdesL s.ws e (if aip then Memory.readBytes s.mem 0xC00 s.aiLen.toNat else [])
        rc := 1#64, err := .ok, result := 0#32, phase := .idle, done := true }

/-- R255, R145, R150: RESEED and GENERATE report their first failing check, assert no fetch, and change nothing else. That the
port is idle after a completion is deduced (log 5). -/
def Obligations.ReseedGenerateCheckOrder : Prop :=
  ∀ (s : State) (i : Instr) (aip : Bool), (i = .reseed aip ∨ i = .generate false aip ∨ i = .generate true aip) →
    let rejects (code : ResultCode) (result : Word) : Prop :=
      ∃ t, exec i s = .next t ∧ t.entReq = false ∧ t.agreesButPort
        { s with err := code, result := result, phase := .idle, done := true }
    (s.lifecycle ≠ .ready → rejects .wrongState 0#32)
    ∧ (s.lifecycle = .ready → aip = true → s.cfg.maxStrBytes < s.aiLen.toNat → rejects .inputTooLong 0#32)
    ∧ (s.lifecycle = .ready → (aip = true → s.aiLen.toNat ≤ s.cfg.maxStrBytes) → i ≠ .reseed aip →
      (maxReqBits s.mechL s.tdesL < 8 * s.reqLen.toNat → rejects .requestTooLarge 0#32)
      ∧ (8 * s.reqLen.toNat ≤ maxReqBits s.mechL s.tdesL → reseedMax s.mechL s.tdesL < s.rc.toNat →
        rejects .reseedRequired 0xFFFFFFFF#32))

/-- R150, R154: GENERATE with PR = 0 in READY with every check passed: its whole effect. -/
def Obligations.GenerateSucceeds : Prop :=
  ∀ (s : State) (aip : Bool), s.cfg.legal = true → s.lifecycle = .ready →
    (aip = true → s.aiLen.toNat ≤ s.cfg.maxStrBytes) → 8 * s.reqLen.toNat ≤ maxReqBits s.mechL s.tdesL →
    s.rc.toNat ≤ reseedMax s.mechL s.tdesL →
    let g := mechGenerate s.cfg s.mechL s.tdesL s.ws s.rc.toNat s.reqLen.toNat
      (if aip then some (Memory.readBytes s.mem 0xC00 s.aiLen.toNat) else none)
    ∃ t, exec (.generate false aip) s = .next t
      ∧ t.agreesButPort { s with
          ws := g.2, rc := s.rc + 1#64, mem := t.mem
          err := .ok, result := t.result, phase := .idle, done := true }
      ∧ t.result.toNat = 8 * s.reqLen.toNat ∧ t.rc.toNat = s.rc.toNat + 1
      ∧ (∀ k, k < s.reqLen.toNat → Memory.read t.mem (0x10000 + k) = g.1.getD k 0x00#8)
      ∧ ∀ a, (a < 0x10000 ∨ 0x10000 + s.reqLen.toNat ≤ a) → Memory.read t.mem a = Memory.read s.mem a

/-- R150, R152, R154: GENERATE with PR = 1 in READY with every check passed and a sufficient fetch: an internal reseed with
the additional input, then a generation without it under the counter 1. -/
def Obligations.GeneratePredictionResistant : Prop :=
  ∀ (s : State) (aip : Bool) (e : ByteString), s.cfg.legal = true → s.lifecycle = .ready →
    (aip = true → s.aiLen.toNat ≤ s.cfg.maxStrBytes) → 8 * s.reqLen.toNat ≤ maxReqBits s.mechL s.tdesL →
    s.rc.toNat ≤ reseedMax s.mechL s.tdesL → s.entData = some e → s.ssL.toNat ≤ 8 * e.length →
    let w := mechReseed s.cfg s.mechL s.tdesL s.ws e (if aip then Memory.readBytes s.mem 0xC00 s.aiLen.toNat else [])
    let g := mechGenerate s.cfg s.mechL s.tdesL w 1 s.reqLen.toNat none
    ∃ t, exec (.generate true aip) s = .next t
      ∧ t.agreesButPort { s with
          ws := g.2, rc := 2#64, mem := t.mem
          err := .ok, result := t.result, phase := .idle, done := true }
      ∧ t.result.toNat = 8 * s.reqLen.toNat
      ∧ (∀ k, k < s.reqLen.toNat → Memory.read t.mem (0x10000 + k) = g.1.getD k 0x00#8)
      ∧ ∀ a, (a < 0x10000 ∨ 0x10000 + s.reqLen.toNat ≤ a) → Memory.read t.mem a = Memory.read s.mem a

/-- R160, R44: UNINSTANTIATE, in every lifecycle state: its whole effect. -/
def Obligations.UninstantiateZeroizes : Prop :=
  ∀ s : State,
    ∃ t, exec .uninstantiate s = .next t
      ∧ t.agreesButPort { s with
          ws := ⟨[], [], [], []⟩, rc := 0#64, ssL := 0#16, mechL := .hash, tdesL := false, lifecycle := .uninst
          mem := t.mem, err := .ok, result := 0#32, phase := .idle, done := true }
      ∧ (∀ a, 0x10000 ≤ a → a < 0x20000 → Memory.read t.mem a = 0x00#8)
      ∧ ∀ a, (a < 0x10000 ∨ 0x20000 ≤ a) → Memory.read t.mem a = Memory.read s.mem a

/-- R243: a short fetch ends the command with ENTROPY_STARVATION; with FATAL_STICKY = 1 the block is zeroized and in ERROR,
with 0 nothing else changes. -/
def Obligations.EntropyStarvation : Prop :=
  ∀ (s : State) (i : Instr) (ss : Nat) (e : ByteString), s.entData = some e → 8 * e.length < ss →
    ((i = .instantiate ∧ ss = s.secStrength.toNat ∧ ∃ m, instantiateChecks s = .ok m)
      ∨ (∃ aip, i = .reseed aip ∧ ss = s.ssL.toNat ∧ reseedChecks aip s = none)
      ∨ (∃ aip, i = .generate true aip ∧ ss = s.ssL.toNat ∧ generateChecks aip s = none)) →
    ∃ t, exec i s = .next t
      ∧ (s.cfg.fatalSticky = false →
          t.agreesButPort { s with err := .entropyStarvation, result := 0#32, phase := .idle, done := true })
      ∧ (s.cfg.fatalSticky = true →
          t.agreesButPort { s with
            ws := ⟨[], [], [], []⟩, rc := 0#64, ssL := 0#16, mechL := .hash, tdesL := false, lifecycle := .error
            mem := t.mem, err := .entropyStarvation, result := 0#32, phase := .idle, done := true }
          ∧ (∀ a, 0x10000 ≤ a → a < 0x20000 → Memory.read t.mem a = 0x00#8)
          ∧ ∀ a, (a < 0x10000 ∨ 0x20000 ≤ a) → Memory.read t.mem a = Memory.read s.mem a)

/-- R60: a command asserts the entropy request exactly when it has passed its checks before the fetch and has no answer yet;
then nothing else changes. The port's fields and that they are idle after a completion are deduced (log 5). -/
def Obligations.RequestOnlyAfterChecks : Prop :=
  ∀ (s t : State) (i : Instr), s.entReq = false → exec i s = .next t →
    (t.entReq = true ↔
      s.entData = none ∧
        ((i = .instantiate ∧ ∃ m, instantiateChecks s = .ok m)
        ∨ (∃ aip, i = .reseed aip ∧ reseedChecks aip s = none)
        ∨ (∃ aip, i = .generate true aip ∧ generateChecks aip s = none)))
    ∧ (t.entReq = true → t = { s with entReq := true })

/-- R59, R258: in every state `irq` is DONE and DONE_IE. R131, R258: whatever its code, a completion sets DONE, ends BUSY and
raises `irq` when it is enabled; with the fetch answered, every accepted command completes (R279), and no host-written register
or input buffer changes. -/
def Obligations.AnsweredCommandCompletes : Prop :=
  (∀ s : State, s.irq = true ↔ (s.done = true ∧ s.doneIe = true))
  ∧ ∀ (i : Instr) (s : State) (e : ByteString), i ≠ .nop → s.entData = some e →
    ∃ t, exec i s = .next t ∧ t.phase = .idle ∧ t.done = true ∧ t.irq = s.doneIe
      ∧ t.mechSel = s.mechSel ∧ t.secStrength = s.secStrength ∧ t.reqLen = s.reqLen ∧ t.aiLen = s.aiLen
      ∧ t.persLen = s.persLen ∧ t.nonceLen = s.nonceLen ∧ t.doneIe = s.doneIe ∧ t.cmdDropped = s.cmdDropped
      ∧ ∀ a, a < 0x10000 → Memory.read t.mem a = Memory.read s.mem a

/-- R60, R279: a BUSY command that waits for its fetch completes in the two steps in which the entropy source answers and the
controller has its turn: the command runs with the whole delivered string, its bytes in the order delivered, as its fetch. The two
events, and that the answer ends the request, are the model's (logs 1, 2, 5). An answer to no request, or under reset, is ignored:
R271 says so after a reset, and otherwise it is deduced (log 7). -/
def Obligations.HandshakeCompletes : Prop :=
  (∀ (s : State) (e : ByteString) (rest : List Event), s.cfg.legal = true → s.rst = false → s.phase = .busy →
    s.cmdL.instr ≠ .nop → s.entReq = true → e.length ≤ s.cfg.entMaxBytes →
    ∃ t : State, Host.Core.run Sys2Proof.core 2 { s with events := .entropy e :: .controller :: rest } = .next t
      ∧ exec s.cmdL.instr { s with events := rest, entReq := false, entData := some e } = .next t
      ∧ t.phase = .idle ∧ t.done = true ∧ t.events = rest)
  ∧ ∀ (s : State) (e : ByteString) (rest : List Event), s.cfg.legal = true → (s.entReq = false ∨ s.rst = true) →
    e.length ≤ s.cfg.entMaxBytes → s.events = .entropy e :: rest → step s = .next { s with events := rest }

/-- R153, R118: after an instantiate or reseed, GENERATE succeeds RESEED_MAX times and the next one signals RESEED_REQUIRED,
with the working state, RC, STATE and the output buffer unchanged. The count is R118's corner case, which the spec marks as
derived. -/
def Obligations.CeilingReachedExactly : Prop :=
  ∀ s : State, s.lifecycle = .ready → s.rc = 1#64 → 8 * s.reqLen.toNat ≤ maxReqBits s.mechL s.tdesL →
    (∀ k, k ≤ reseedMax s.mechL s.tdesL →
      ∃ t, execTimes (.generate false false) k s = .next t ∧ t.lifecycle = .ready ∧ t.rc.toNat = k + 1
        ∧ (0 < k → t.err = .ok))
    ∧ ∃ t u, execTimes (.generate false false) (reseedMax s.mechL s.tdesL) s = .next t
      ∧ exec (.generate false false) t = .next u
      ∧ u.agreesButPort { t with err := .reseedRequired, result := 0xFFFFFFFF#32, phase := .idle, done := true }

/-! ## Datapath (40_datapath.md to 44_ctr_drbg.md) -/

/-- R110: the big-endian value, the first byte most significant, and the encoding of a number. -/
def Obligations.BigEndianValueAndBytes : Prop :=
  (∀ (x : Byte) (b : ByteString), beInt (x :: b) = x.toNat * 256 ^ b.length + beInt b) ∧
  (∀ v n : Nat, beInt (beBytes v n) = v % 256 ^ n ∧ (beBytes v n).length = n)
  ∧ (∀ b : ByteString, beBytes (beInt b) b.length = b)
  ∧ beInt [] = 0 ∧ ∀ v : Nat, enc32 v = beBytes v 4 ∧ beBytes v 0 = []

/-- R111: fixed-width big-endian addition: the width of the first operand, the carry dropped; and, which the spec marks as
derived, in steps or in one sum. -/
def Obligations.BigEndianAddition : Prop :=
  (∀ (a : ByteString) (bs : List ByteString),
    (beAdd a bs).length = a.length ∧ beInt (beAdd a bs) = (beInt a + (bs.map beInt).sum) % 256 ^ a.length)
  ∧ ∀ a b c : ByteString, beAdd (beAdd a [b]) [c] = beAdd a [b, c]

/-- R112: the increment is over the whole width and wraps from all 0xFF to all 0x00. -/
def Obligations.IncrementWraps : Prop :=
  (∀ a : ByteString, (inc a).length = a.length ∧ beInt (inc a) = (beInt a + 1) % 256 ^ a.length)
  ∧ ∀ n : Nat, inc (List.replicate n 0xFF#8) = zeros n

/-- R114: a bit truncation is the number formed by the first `nb` bits, in `ceil(nb/8)` bytes. -/
def Obligations.BitTruncation : Prop :=
  ∀ (b : ByteString) (nb : Nat), nb ≤ 8 * b.length →
    (leftBits b nb).length = (nb + 7) / 8 ∧ beInt (leftBits b nb) = beInt b / 2 ^ (8 * b.length - nb)

/-- R117: the request-size comparison is exact, with the rule's corner cases. -/
def Obligations.RequestSizeComparison : Prop :=
  (∀ (m : Mech) (td : Bool) (n : Nat),
    (tooLarge m td n = true ↔ 8 * n > maxReqBits m td) ∧ (tooLarge m td n = true ↔ n > maxReqBits m td / 8)
    ∧ tooLarge m td 0 = false ∧ tooLarge m td 0x20000000 = true)
  ∧ tooLarge .hash false 65536 = false ∧ tooLarge .hash false 65537 = true
  ∧ tooLarge .ctr true 1024 = false ∧ tooLarge .ctr true 1025 = true

/-- R121: the ceilings. -/
def Obligations.CeilingsTable : Prop :=
  (∀ td : Bool, maxReqBits .hash td = 2 ^ 19 ∧ reseedMax .hash td = 2 ^ 48
    ∧ maxReqBits .hmac td = 2 ^ 19 ∧ reseedMax .hmac td = 2 ^ 48)
  ∧ maxReqBits .ctr false = 2 ^ 19 ∧ reseedMax .ctr false = 2 ^ 48
  ∧ maxReqBits .ctr true = 2 ^ 13 ∧ reseedMax .ctr true = 2 ^ 32

/-- R120: the entropy-sufficiency comparison, in both of the rule's forms. -/
def Obligations.EntropySufficiency : Prop :=
  ∀ (e : ByteString) (ss : BitVec 16),
    (entropyOK e ss = true ↔ (ss.toNat + 7) / 8 ≤ e.length) ∧ (entropyOK e ss = true ↔ ss.toNat ≤ 8 * e.length)

/-- R20, R141, R146, R151: for a legal configuration, every mechanism function returns a working state of its mechanism's
shape, and GENERATE's output has exactly `n` bytes. The ports' output lengths are the model's choice (log 4). -/
def Obligations.MechanismsKeepShape : Prop :=
  ∀ (c : Config) (m : Mech) (td : Bool) (ws : WorkingState) (e nonce pers a : ByteString) (rc n : Nat)
    (ai : Option ByteString), c.legal = true → ws.shaped c m →
    (mechInstantiate c m e nonce pers).shaped c m ∧ (mechReseed c m td ws e a).shaped c m
    ∧ (mechGenerate c m td ws rc n ai).2.shaped c m ∧ (mechGenerate c m td ws rc n ai).1.length = n

/-- R177, with R175's final addition: Hash_DRBG's counter term is the low 32 bits of the counter, added at the low end of `V`. -/
def Obligations.HashCounterTermIs32Bits : Prop :=
  (∀ rc : Nat, beInt (enc32 rc) = rc % 2 ^ 32)
  ∧ ∀ (p : Prims) (c : Config) (ws : WorkingState) (rc n : Nat) (ai : Option ByteString),
    hashGenerate p c ws rc n ai = hashGenerate p c ws (rc % 2 ^ 32) n ai
    ∧ (hashGenerate p c ws rc n none).2.C = ws.C
    ∧ beInt (hashGenerate p c ws rc n none).2.V
      = (beInt ws.V + beInt (p.H (0x03#8 :: ws.V)) + beInt ws.C + rc % 2 ^ 32) % 256 ^ ws.V.length

/-- R190: Update's two passes: the second runs exactly when the seed material is present, also when it is empty. -/
def Obligations.HmacUpdatePasses : Prop :=
  ∀ (p : Prims) (K V s : ByteString),
    let K1 (x : ByteString) := p.M K (V ++ [0x00#8] ++ x)
    let V1 (x : ByteString) := p.M (K1 x) V
    hmacUpdate p (K, V) none = (K1 [], V1 [])
    ∧ hmacUpdate p (K, V) (some s)
      = (p.M (K1 s) (V1 s ++ [0x01#8] ++ s), p.M (p.M (K1 s) (V1 s ++ [0x01#8] ++ s)) (V1 s))

/-- R210: the triple-DES key expansion gives 24 bytes, each of odd parity, with the key bits of the segments in bits [7:1]; the
spec marks the places of the key and parity bits as general knowledge ("the usual DES key-byte layout"). -/
def Obligations.TdeaExpansionHasOddParity : Prop :=
  ∀ k : ByteString, k.length = 21 →
    (expandTdea k).length = 24
    ∧ (∀ x ∈ expandTdea k, ((List.range 8).filter fun i => x.getLsbD i).length % 2 = 1)
    ∧ ∀ s j, s < 3 → j < 8 →
      ((expandTdea k).getD (8 * s + j) 0x00#8).toNat / 2 = (beInt ((k.drop (7 * s)).take 7) / 2 ^ (49 - 7 * j)) % 128

/-- R213: Block_Cipher_df's input is a whole number of blocks, holds the two lengths, the string and the end marker, and is
padded with the fewest zero bytes. That the length counts bytes the spec marks as general knowledge. -/
def Obligations.DerivationInputIsPadded : Prop :=
  ∀ (c : Config) (x : ByteString) (N : Nat), c.legal = true →
    ∃ k, k < c.blen ∧ dfInput c x N = enc32 x.length ++ enc32 N ++ x ++ [0x80#8] ++ zeros k
      ∧ (dfInput c x N).length % c.blen = 0

/-! ## The whole machine -/

/-- The invariant holds after reset. -/
def Obligations.ResetMeetsInvariant : Prop := State.reset.Inv

/-- Every step keeps the invariant: the memory's canonical form, R20's shapes, R31's counter bounds, no secret state outside
READY (R24, R44), the latched fields (R33), the entropy port idle outside BUSY (log 5), DONE 0 while BUSY, reset held (log 9). -/
def Obligations.StepKeepsInvariant : Prop :=
  ∀ s t : State, s.Inv → step s = .next t → t.Inv

/-- A run whose configuration is legal and whose events the block can meet never stops (R256: no outcome is a trap). What the
block cannot meet is the model's choice (logs 5, 6, 11). -/
def Obligations.SafeRunNeverStops : Prop :=
  ∀ (k : Nat) (s : State), s.safe → ∃ t : State, Host.Core.run Sys2Proof.core k s = .next t ∧ t.safe

/-! ## The mechanisms' functions (42_hash_drbg.md to 44_ctr_drbg.md) -/

/-- R141, R146, R151: what Instantiate, Reseed and Generate of the three mechanisms compute, by R170, R172 to R177 (Hash),
R191 to R193 (HMAC) and R211 to R218 (CTR), in closed form: the block of each round by its index. `none` is an absent additional
input, `some a` a present one, the empty string too. That a loop "while len(temp) < n" makes `ceil(n / k)` rounds is deduced
(log 12), and so is holding an unused register of the working state as the empty string (log 13). The spec marks as general
knowledge R213's counter start, the place of the counter in the IV and the stretch, and as derived that R218's final update
takes the derived string. -/
def Obligations.MechanismsFollowTheirRules : Prop :=
  ∀ (c : Config) (td : Bool) (ws : WorkingState) (e nonce pers x : ByteString) (rc n : Nat),
    let H := c.prims.H
    let M := c.prims.M
    -- `f 0 ‖ f 1 ‖ …`, as many strings as cover `total` bytes with `each` bytes a string
    let concat (total each : Nat) (f : Nat → ByteString) : ByteString :=
      (List.range ((total + each - 1) / each)).flatMap f
    -- R112: the string `V` after `j` increments
    let plus (V : ByteString) (j : Nat) : ByteString := beBytes (beInt V + j) V.length
    -- R170 with a whole number of bytes to return
    let df (y : ByteString) (nb : Nat) : ByteString :=
      leftBits (concat nb (8 * c.hlen) fun i => H ([BitVec.ofNat 8 (i + 1)] ++ enc32 nb ++ y)) nb
    -- R173, R174: the state of a new `V`
    let seeded (V : ByteString) : WorkingState := { V := V, C := df (0x00#8 :: V) c.seedlen, K := [], Key := [] }
    -- R172, R175, R177: output and new state from the `V` after the additional input
    let hashFrom (V : ByteString) : ByteString × WorkingState :=
      ((concat n c.hlen fun j => H (plus V j)).take n,
        { V := beBytes (beInt V + beInt (H (0x03#8 :: V)) + beInt ws.C + rc % 2 ^ 32) V.length, C := ws.C, K := [], Key := [] })
    let keyed (kv : ByteString × ByteString) : WorkingState := { V := kv.2, C := [], K := kv.1, Key := [] }
    -- R193 from the (K, V) after the additional input
    let hmacFrom (kv : ByteString × ByteString) (ai : Option ByteString) : ByteString × WorkingState :=
      ((concat n c.mlen fun j => (M kv.1)^[j + 1] kv.2).take n,
        keyed (hmacUpdate c.prims (kv.1, (M kv.1)^[(n + c.mlen - 1) / c.mlen] kv.2) ai))
    -- R211
    let E (t : Bool) (k y : ByteString) : ByteString := c.prims.E (if t then expandTdea k else k) y
    let xor (a b : ByteString) : ByteString := List.zipWith (· ^^^ ·) a b
    -- R212
    let chain (t : Bool) (k iv data : ByteString) : ByteString :=
      (List.range (data.length / c.blen)).foldl
        (fun cv i => E t k (xor cv ((data.drop (i * c.blen)).take c.blen))) (E t k iv)
    -- R213 for `8 * N` bits
    let cipherDf (t : Bool) (y : ByteString) (N : Nat) : ByteString :=
      let temp := concat (c.klen + c.blen) c.blen fun i =>
        chain t (((List.range 32).map (BitVec.ofNat 8)).take c.klen) (enc32 i ++ List.replicate (c.blen - 4) 0x00#8)
          (dfInput c y N)
      (concat N c.blen fun j => (E t (temp.take c.klen))^[j + 1] ((temp.drop c.klen).take c.blen)).take N
    -- R214
    let update (t : Bool) (seed : ByteString) (kv : ByteString × ByteString) : ByteString × ByteString :=
      let temp := xor ((concat (c.klen + c.blen) c.blen fun j => E t kv.1 (plus kv.2 (j + 1))).take (c.klen + c.blen)) seed
      (temp.take c.klen, temp.drop c.klen)
    let cipherState (kv : ByteString × ByteString) : WorkingState := { V := kv.2, C := [], K := [], Key := kv.1 }
    -- R217 from the (Key, V) after the additional input, and the string of the final update
    let ctrFrom (kv : ByteString × ByteString) (a2 : ByteString) : ByteString × WorkingState :=
      ((concat n c.blen fun j => E td kv.1 (plus kv.2 (j + 1))).take n,
        cipherState (update td a2 (kv.1, plus kv.2 ((n + c.blen - 1) / c.blen))))
    -- Hash_DRBG
    mechInstantiate c .hash e nonce pers = seeded (df (e ++ nonce ++ pers) c.seedlen)
    ∧ mechReseed c .hash td ws e x = seeded (df (0x01#8 :: (ws.V ++ e ++ x)) c.seedlen)
    ∧ mechGenerate c .hash td ws rc n none = hashFrom ws.V
    ∧ mechGenerate c .hash td ws rc n (some x)
      = hashFrom (beBytes (beInt ws.V + beInt (H (0x02#8 :: (ws.V ++ x)))) ws.V.length)
    -- HMAC_DRBG
    ∧ mechInstantiate c .hmac e nonce pers
      = keyed (hmacUpdate c.prims (List.replicate c.mlen 0x00#8, List.replicate c.mlen 0x01#8) (some (e ++ nonce ++ pers)))
    ∧ mechReseed c .hmac td ws e x = keyed (hmacUpdate c.prims (ws.K, ws.V) (some (e ++ x)))
    ∧ mechGenerate c .hmac td ws rc n none = hmacFrom (ws.K, ws.V) none
    ∧ mechGenerate c .hmac td ws rc n (some x) = hmacFrom (hmacUpdate c.prims (ws.K, ws.V) (some x)) (some x)
    -- CTR_DRBG
    ∧ mechInstantiate c .ctr e nonce pers
      = cipherState (update c.cIsTdea (cipherDf c.cIsTdea (e ++ nonce ++ pers) (c.klen + c.blen))
        (List.replicate c.klen 0x00#8, List.replicate c.blen 0x00#8))
    ∧ mechReseed c .ctr td ws e x = cipherState (update td (cipherDf td (e ++ x) (c.klen + c.blen)) (ws.Key, ws.V))
    ∧ mechGenerate c .ctr td ws rc n none = ctrFrom (ws.Key, ws.V) (List.replicate (c.klen + c.blen) 0x00#8)
    ∧ mechGenerate c .ctr td ws rc n (some x)
      = ctrFrom (update td (cipherDf td x (c.klen + c.blen)) (ws.Key, ws.V)) (cipherDf td x (c.klen + c.blen))
end

