-- ==== Sys2Proof/Laws/Memory.lean ====
section
/-! SUPPORT. The memory's laws: what a byte reads as after each memory operation, and that each keeps the canonical form. -/

namespace Sys2Proof.Machine

/-! ## Reading -/

@[simp] theorem Memory.read_nil (a : Nat) : Memory.read [] a = Memory.unlisted := rfl

theorem Memory.read_cons (x : Host.Cell) (m : Memory) (a : Nat) :
    Memory.read (x :: m) a = if x.1 = a then x.2 else Memory.read m a := by
  by_cases h : x.1 = a <;> simp [Memory.read, h]

theorem Memory.read_append_of_forall_ne (m m' : Memory) (a : Nat) (h : ∀ x ∈ m, x.1 ≠ a) :
    Memory.read (m ++ m') a = Memory.read m' a := by
  induction m with
  | nil => rfl
  | cons x m ih =>
    have hx : x.1 ≠ a := h x List.mem_cons_self
    simp only [List.cons_append, Memory.read_cons, hx, if_false]
    exact ih fun y hy => h y (List.mem_cons_of_mem _ hy)

theorem Memory.read_append_left (m m' : Memory) (a : Nat) (h : ∀ x ∈ m', x.1 ≠ a) :
    Memory.read (m ++ m') a = Memory.read m a := by
  induction m with
  | nil =>
    have := Memory.read_append_of_forall_ne m' [] a h
    simpa using this
  | cons x m ih => simp only [List.cons_append, Memory.read_cons, ih]

theorem Memory.read_of_forall_ne (m : Memory) (a : Nat) (h : ∀ x ∈ m, x.1 ≠ a) :
    Memory.read m a = Memory.unlisted := by
  have := Memory.read_append_of_forall_ne m [] a h
  simpa using this

/-- A filter by offset keeps the byte at an offset that passes it. -/
theorem Memory.read_filter_pos (m : Memory) (p : Host.Cell → Bool) (a : Nat) (h : ∀ x : Host.Cell, x.1 = a → p x = true) :
    Memory.read (m.filter p) a = Memory.read m a := by
  induction m with
  | nil => rfl
  | cons x m ih =>
    by_cases hx : p x = true
    · simp [hx, Memory.read_cons, ih]
    · have hne : x.1 ≠ a := fun he => hx (h x he)
      simp [hx, Memory.read_cons, hne, ih]

/-- A filter by offset clears the byte at an offset that fails it. -/
theorem Memory.read_filter_neg (m : Memory) (p : Host.Cell → Bool) (a : Nat) (h : ∀ x : Host.Cell, x.1 = a → p x = false) :
    Memory.read (m.filter p) a = Memory.unlisted := by
  refine Memory.read_of_forall_ne _ _ fun x hx he => ?_
  have := (List.mem_filter.mp hx).2
  simp [h x he] at this

/-! ## Stored bytes -/

theorem Memory.cells_range (bs : ByteString) (a : Nat) : ∀ x ∈ Memory.cells a bs, a ≤ x.1 ∧ x.1 < a + bs.length := by
  induction bs generalizing a with
  | nil => simp [Memory.cells]
  | cons b bs ih =>
    intro x hx
    have key : x = (a, b) ∨ x ∈ Memory.cells (a + 1) bs := by
      simp only [Memory.cells] at hx
      split at hx
      · exact .inr hx
      · simpa using hx
    rcases key with rfl | h
    · simp
    · have := ih (a + 1) x h
      simp only [List.length_cons]
      omega

theorem Memory.cells_ne_unlisted (bs : ByteString) (a : Nat) : ∀ x ∈ Memory.cells a bs, x.2 ≠ Memory.unlisted := by
  induction bs generalizing a with
  | nil => simp [Memory.cells]
  | cons b bs ih =>
    intro x hx
    simp only [Memory.cells] at hx
    split at hx
    · exact ih _ x hx
    · rcases List.mem_cons.mp hx with rfl | h
      · assumption
      · exact ih _ x h

theorem Memory.cells_pairwise (bs : ByteString) (a : Nat) : (Memory.cells a bs).Pairwise (fun x y => x.1 < y.1) := by
  induction bs generalizing a with
  | nil => simp [Memory.cells]
  | cons b bs ih =>
    simp only [Memory.cells]
    split
    · exact ih _
    · refine List.pairwise_cons.mpr ⟨fun y hy => ?_, ih _⟩
      have := Memory.cells_range bs (a + 1) y hy
      show a < y.1
      omega

theorem Memory.read_cells (bs : ByteString) (a x : Nat) :
    Memory.read (Memory.cells a bs) x = if a ≤ x then bs.getD (x - a) Memory.unlisted else Memory.unlisted := by
  induction bs generalizing a with
  | nil => simp [Memory.cells]
  | cons b bs ih =>
    by_cases hlt : x < a
    · rw [if_neg (by omega)]
      refine Memory.read_of_forall_ne _ _ fun y hy he => ?_
      have := Memory.cells_range _ _ y hy
      omega
    · rw [if_pos (by omega)]
      simp only [Memory.cells]
      by_cases hxa : x = a
      · subst hxa
        split
        · rename_i hb
          rw [ih, if_neg (by omega)]
          simp [hb]
        · simp [Memory.read_cons]
      · obtain ⟨k, rfl⟩ : ∃ k, x = a + 1 + k := ⟨x - a - 1, by omega⟩
        have h1 : a + 1 + k - a = k + 1 := by omega
        have h2 : a + 1 + k - (a + 1) = k := by omega
        split
        · rw [ih, if_pos (by omega), h1, h2]; simp
        · rw [Memory.read_cons, if_neg (by show a ≠ _; omega), ih, if_pos (by omega), h1, h2]; simp

/-! ## writeBytes -/

/-- What `writeBytes` does to the byte at every offset: inside the stored bytes, the byte stored there; outside, nothing. -/
theorem Memory.read_writeBytes (m : Memory) (a : Nat) (bs : ByteString) (x : Nat) :
    Memory.read (Memory.writeBytes m a bs) x
      = if a ≤ x ∧ x < a + bs.length then bs.getD (x - a) Memory.unlisted else Memory.read m x := by
  unfold Memory.writeBytes
  split
  · rename_i h; subst h; simp
  · by_cases hlo : x < a
    · rw [if_neg (by omega), List.append_assoc, Memory.read_append_left, Memory.read_filter_pos]
      · intro y hy; simp [hy, hlo]
      · intro y hy
        rcases List.mem_append.mp hy with h | h
        · have := Memory.cells_range _ _ y h; omega
        · have := (List.mem_filter.mp h).2; simp at this; omega
    · by_cases hhi : x < a + bs.length
      · rw [if_pos ⟨by omega, hhi⟩, Memory.read_append_left, Memory.read_append_of_forall_ne, Memory.read_cells,
          if_pos (by omega)]
        · intro y hy; have := (List.mem_filter.mp hy).2; simp at this; omega
        · intro y hy; have := (List.mem_filter.mp hy).2; simp at this; omega
      · rw [if_neg (by omega), Memory.read_append_of_forall_ne, Memory.read_filter_pos]
        · intro y hy; simp [hy]; omega
        · intro y hy
          rcases List.mem_append.mp hy with h | h
          · have := (List.mem_filter.mp h).2; simp at this; omega
          · have := Memory.cells_range _ _ y h; omega

/-- `writeBytes` leaves every byte outside the stored ones. -/
theorem Memory.read_writeBytes_outside (m : Memory) (a : Nat) (bs : ByteString) (x : Nat)
    (h : x < a ∨ a + bs.length ≤ x) : Memory.read (Memory.writeBytes m a bs) x = Memory.read m x := by
  rw [Memory.read_writeBytes, if_neg (by omega)]

/-- `writeBytes` stores each byte at its place. -/
theorem Memory.read_writeBytes_inside (m : Memory) (a : Nat) (bs : ByteString) (i : Nat) (h : i < bs.length) :
    Memory.read (Memory.writeBytes m a bs) (a + i) = bs.getD i Memory.unlisted := by
  rw [Memory.read_writeBytes, if_pos (by omega)]
  simp

/-- Storing no byte changes nothing. -/
@[simp] theorem Memory.writeBytes_nil (m : Memory) (a : Nat) : Memory.writeBytes m a [] = m := rfl

theorem Memory.mem_writeBytes {m : Memory} {a : Nat} {bs : ByteString} {x : Host.Cell}
    (h : x ∈ Memory.writeBytes m a bs) : x ∈ m ∨ (a ≤ x.1 ∧ x.1 < a + bs.length) := by
  unfold Memory.writeBytes at h
  split at h
  · exact .inl h
  · rcases List.mem_append.mp h with h | h
    · rcases List.mem_append.mp h with h | h
      · exact .inl (List.mem_filter.mp h).1
      · exact .inr (Memory.cells_range _ _ x h)
    · exact .inl (List.mem_filter.mp h).1

/-- `writeBytes` keeps the canonical form. -/
theorem Memory.wf_writeBytes {m : Memory} (h : Memory.wf m) (a : Nat) (bs : ByteString) :
    Memory.wf (Memory.writeBytes m a bs) := by
  unfold Memory.writeBytes
  split
  · exact h
  · refine ⟨?_, fun x hx => ?_⟩
    · refine List.pairwise_append.mpr ⟨List.pairwise_append.mpr ⟨h.1.filter _, Memory.cells_pairwise _ _, ?_⟩,
        h.1.filter _, ?_⟩
      · intro x hx y hy
        have hx := (List.mem_filter.mp hx).2
        have := Memory.cells_range _ _ y hy
        simp at hx
        omega
      · intro x hx y hy
        have hy := (List.mem_filter.mp hy).2
        simp at hy
        rcases List.mem_append.mp hx with h | h
        · have := (List.mem_filter.mp h).2; simp at this; omega
        · have := Memory.cells_range _ _ x h; omega
    · rcases List.mem_append.mp hx with hx | hx
      · rcases List.mem_append.mp hx with hx | hx
        · exact h.2 x (List.mem_filter.mp hx).1
        · exact Memory.cells_ne_unlisted _ _ x hx
      · exact h.2 x (List.mem_filter.mp hx).1

/-! ## clearBytes -/

/-- What `clearBytes` does to the byte at every offset. -/
theorem Memory.read_clearBytes (m : Memory) (a n x : Nat) :
    Memory.read (Memory.clearBytes m a n) x = if a ≤ x ∧ x < a + n then Memory.unlisted else Memory.read m x := by
  unfold Memory.clearBytes
  split
  · exact Memory.read_filter_neg _ _ _ fun y hy => by simp [hy]; omega
  · exact Memory.read_filter_pos _ _ _ fun y hy => by simp [hy]; omega

/-- The output buffer cleared (R44): its bytes read 0x00. -/
theorem Memory.read_clearOut (m : Memory) {x : Nat} (h : 0x10000 ≤ x ∧ x < 0x20000) :
    Memory.read (Memory.clearBytes m (Buf.base .out) outBytes) x = Memory.unlisted := by
  have hb : Buf.base .out = 0x10000 := rfl
  have ho : outBytes = 0x10000 := rfl
  rw [Memory.read_clearBytes, if_pos (by omega)]

/-- The output buffer cleared (R44): every other byte stays. -/
theorem Memory.read_clearOut_outside (m : Memory) {x : Nat} (h : x < 0x10000 ∨ 0x20000 ≤ x) :
    Memory.read (Memory.clearBytes m (Buf.base .out) outBytes) x = Memory.read m x := by
  have hb : Buf.base .out = 0x10000 := rfl
  have ho : outBytes = 0x10000 := rfl
  rw [Memory.read_clearBytes, if_neg (by omega)]

theorem Memory.mem_clearBytes {m : Memory} {a n : Nat} {x : Host.Cell} (h : x ∈ Memory.clearBytes m a n) : x ∈ m :=
  (List.mem_filter.mp h).1

/-- `clearBytes` keeps the canonical form. -/
theorem Memory.wf_clearBytes {m : Memory} (h : Memory.wf m) (a n : Nat) : Memory.wf (Memory.clearBytes m a n) :=
  ⟨h.1.filter _, fun x hx => h.2 x (List.mem_filter.mp hx).1⟩

/-! ## Reset -/

/-- The memory after reset has the canonical form. -/
theorem Memory.wf_reset : Memory.wf State.reset.mem := by decide

/-! ## readBytes -/

@[simp] theorem Memory.readBytes_length (m : Memory) (a n : Nat) : (Memory.readBytes m a n).length = n := by
  induction n generalizing a with
  | zero => rfl
  | succ n ih => simp [Memory.readBytes, ih]

/-- Byte `i` of a string read from offset `a` on. -/
theorem Memory.readBytes_getD (m : Memory) (a n i : Nat) (h : i < n) (d : Byte) :
    (Memory.readBytes m a n).getD i d = Memory.read m (a + i) := by
  induction n generalizing a i with
  | zero => omega
  | succ n ih =>
    cases i with
    | zero => simp [Memory.readBytes]
    | succ i =>
      have := ih (a + 1) i (by omega)
      simp only [Memory.readBytes, List.getD_cons_succ, this]
      congr 1
      omega

/-- Equal bytes give equal strings. -/
theorem Memory.readBytes_congr (m m' : Memory) (a n : Nat) (h : ∀ x, a ≤ x → x < a + n → Memory.read m x = Memory.read m' x) :
    Memory.readBytes m a n = Memory.readBytes m' a n := by
  induction n generalizing a with
  | zero => rfl
  | succ n ih =>
    simp only [Memory.readBytes]
    rw [h a (by omega) (by omega), ih (a + 1) fun x h1 h2 => h x (by omega) (by omega)]

end Sys2Proof.Machine
end

