-- ==== Sys2Proof/Laws/State.lean ====
section
/-! SUPPORT. One lemma for each field of State and each state update: what the field is after the update. -/

namespace Sys2Proof.Machine

/-! ## resetBlock -/

@[simp] theorem State_resetBlock_cfg (s : State) : (s.resetBlock).cfg = s.cfg := rfl
@[simp] theorem State_resetBlock_rst (s : State) : (s.resetBlock).rst = s.rst := rfl
@[simp] theorem State_resetBlock_lifecycle (s : State) : (s.resetBlock).lifecycle = .uninst := rfl
@[simp] theorem State_resetBlock_phase (s : State) : (s.resetBlock).phase = .idle := rfl
@[simp] theorem State_resetBlock_cmdL (s : State) : (s.resetBlock).cmdL = ⟨0#4, false, false⟩ := rfl
@[simp] theorem State_resetBlock_ws (s : State) : (s.resetBlock).ws = WorkingState.zero := rfl
@[simp] theorem State_resetBlock_rc (s : State) : (s.resetBlock).rc = 0#64 := rfl
@[simp] theorem State_resetBlock_ssL (s : State) : (s.resetBlock).ssL = 0#16 := rfl
@[simp] theorem State_resetBlock_mechL (s : State) : (s.resetBlock).mechL = .hash := rfl
@[simp] theorem State_resetBlock_tdesL (s : State) : (s.resetBlock).tdesL = false := rfl
@[simp] theorem State_resetBlock_mechSel (s : State) : (s.resetBlock).mechSel = 0#2 := rfl
@[simp] theorem State_resetBlock_secStrength (s : State) : (s.resetBlock).secStrength = 0#16 := rfl
@[simp] theorem State_resetBlock_done (s : State) : (s.resetBlock).done = false := rfl
@[simp] theorem State_resetBlock_cmdDropped (s : State) : (s.resetBlock).cmdDropped = false := rfl
@[simp] theorem State_resetBlock_err (s : State) : (s.resetBlock).err = .ok := rfl
@[simp] theorem State_resetBlock_result (s : State) : (s.resetBlock).result = 0#32 := rfl
@[simp] theorem State_resetBlock_reqLen (s : State) : (s.resetBlock).reqLen = 0#32 := rfl
@[simp] theorem State_resetBlock_aiLen (s : State) : (s.resetBlock).aiLen = 0#32 := rfl
@[simp] theorem State_resetBlock_persLen (s : State) : (s.resetBlock).persLen = 0#32 := rfl
@[simp] theorem State_resetBlock_nonceLen (s : State) : (s.resetBlock).nonceLen = 0#32 := rfl
@[simp] theorem State_resetBlock_doneIe (s : State) : (s.resetBlock).doneIe = false := rfl
@[simp] theorem State_resetBlock_mem (s : State) : (s.resetBlock).mem = [] := rfl
@[simp] theorem State_resetBlock_entReq (s : State) : (s.resetBlock).entReq = false := rfl
@[simp] theorem State_resetBlock_entData (s : State) : (s.resetBlock).entData = none := rfl
@[simp] theorem State_resetBlock_busResp (s : State) : (s.resetBlock).busResp = s.busResp := rfl
@[simp] theorem State_resetBlock_events (s : State) : (s.resetBlock).events = s.events := rfl

/-! ## complete -/

@[simp] theorem complete_cfg (code : ResultCode) (result : Word) (s : State) : (complete code result s).cfg = s.cfg := rfl
@[simp] theorem complete_rst (code : ResultCode) (result : Word) (s : State) : (complete code result s).rst = s.rst := rfl
@[simp] theorem complete_lifecycle (code : ResultCode) (result : Word) (s : State) : (complete code result s).lifecycle = s.lifecycle := rfl
@[simp] theorem complete_phase (code : ResultCode) (result : Word) (s : State) : (complete code result s).phase = .idle := rfl
@[simp] theorem complete_cmdL (code : ResultCode) (result : Word) (s : State) : (complete code result s).cmdL = s.cmdL := rfl
@[simp] theorem complete_ws (code : ResultCode) (result : Word) (s : State) : (complete code result s).ws = s.ws := rfl
@[simp] theorem complete_rc (code : ResultCode) (result : Word) (s : State) : (complete code result s).rc = s.rc := rfl
@[simp] theorem complete_ssL (code : ResultCode) (result : Word) (s : State) : (complete code result s).ssL = s.ssL := rfl
@[simp] theorem complete_mechL (code : ResultCode) (result : Word) (s : State) : (complete code result s).mechL = s.mechL := rfl
@[simp] theorem complete_tdesL (code : ResultCode) (result : Word) (s : State) : (complete code result s).tdesL = s.tdesL := rfl
@[simp] theorem complete_mechSel (code : ResultCode) (result : Word) (s : State) : (complete code result s).mechSel = s.mechSel := rfl
@[simp] theorem complete_secStrength (code : ResultCode) (result : Word) (s : State) : (complete code result s).secStrength = s.secStrength := rfl
@[simp] theorem complete_done (code : ResultCode) (result : Word) (s : State) : (complete code result s).done = true := rfl
@[simp] theorem complete_cmdDropped (code : ResultCode) (result : Word) (s : State) : (complete code result s).cmdDropped = s.cmdDropped := rfl
@[simp] theorem complete_err (code : ResultCode) (result : Word) (s : State) : (complete code result s).err = code := rfl
@[simp] theorem complete_result (code : ResultCode) (result : Word) (s : State) : (complete code result s).result = result := rfl
@[simp] theorem complete_reqLen (code : ResultCode) (result : Word) (s : State) : (complete code result s).reqLen = s.reqLen := rfl
@[simp] theorem complete_aiLen (code : ResultCode) (result : Word) (s : State) : (complete code result s).aiLen = s.aiLen := rfl
@[simp] theorem complete_persLen (code : ResultCode) (result : Word) (s : State) : (complete code result s).persLen = s.persLen := rfl
@[simp] theorem complete_nonceLen (code : ResultCode) (result : Word) (s : State) : (complete code result s).nonceLen = s.nonceLen := rfl
@[simp] theorem complete_doneIe (code : ResultCode) (result : Word) (s : State) : (complete code result s).doneIe = s.doneIe := rfl
@[simp] theorem complete_mem (code : ResultCode) (result : Word) (s : State) : (complete code result s).mem = s.mem := rfl
@[simp] theorem complete_entReq (code : ResultCode) (result : Word) (s : State) : (complete code result s).entReq = false := rfl
@[simp] theorem complete_entData (code : ResultCode) (result : Word) (s : State) : (complete code result s).entData = none := rfl
@[simp] theorem complete_busResp (code : ResultCode) (result : Word) (s : State) : (complete code result s).busResp = s.busResp := rfl
@[simp] theorem complete_events (code : ResultCode) (result : Word) (s : State) : (complete code result s).events = s.events := rfl

/-! ## reject -/

@[simp] theorem reject_cfg (code : ResultCode) (s : State) : (reject code s).cfg = s.cfg := rfl
@[simp] theorem reject_rst (code : ResultCode) (s : State) : (reject code s).rst = s.rst := rfl
@[simp] theorem reject_lifecycle (code : ResultCode) (s : State) : (reject code s).lifecycle = s.lifecycle := rfl
@[simp] theorem reject_phase (code : ResultCode) (s : State) : (reject code s).phase = .idle := rfl
@[simp] theorem reject_cmdL (code : ResultCode) (s : State) : (reject code s).cmdL = s.cmdL := rfl
@[simp] theorem reject_ws (code : ResultCode) (s : State) : (reject code s).ws = s.ws := rfl
@[simp] theorem reject_rc (code : ResultCode) (s : State) : (reject code s).rc = s.rc := rfl
@[simp] theorem reject_ssL (code : ResultCode) (s : State) : (reject code s).ssL = s.ssL := rfl
@[simp] theorem reject_mechL (code : ResultCode) (s : State) : (reject code s).mechL = s.mechL := rfl
@[simp] theorem reject_tdesL (code : ResultCode) (s : State) : (reject code s).tdesL = s.tdesL := rfl
@[simp] theorem reject_mechSel (code : ResultCode) (s : State) : (reject code s).mechSel = s.mechSel := rfl
@[simp] theorem reject_secStrength (code : ResultCode) (s : State) : (reject code s).secStrength = s.secStrength := rfl
@[simp] theorem reject_done (code : ResultCode) (s : State) : (reject code s).done = true := rfl
@[simp] theorem reject_cmdDropped (code : ResultCode) (s : State) : (reject code s).cmdDropped = s.cmdDropped := rfl
@[simp] theorem reject_err (code : ResultCode) (s : State) : (reject code s).err = code := rfl
@[simp] theorem reject_result (code : ResultCode) (s : State) : (reject code s).result = rejectResult code := rfl
@[simp] theorem reject_reqLen (code : ResultCode) (s : State) : (reject code s).reqLen = s.reqLen := rfl
@[simp] theorem reject_aiLen (code : ResultCode) (s : State) : (reject code s).aiLen = s.aiLen := rfl
@[simp] theorem reject_persLen (code : ResultCode) (s : State) : (reject code s).persLen = s.persLen := rfl
@[simp] theorem reject_nonceLen (code : ResultCode) (s : State) : (reject code s).nonceLen = s.nonceLen := rfl
@[simp] theorem reject_doneIe (code : ResultCode) (s : State) : (reject code s).doneIe = s.doneIe := rfl
@[simp] theorem reject_mem (code : ResultCode) (s : State) : (reject code s).mem = s.mem := rfl
@[simp] theorem reject_entReq (code : ResultCode) (s : State) : (reject code s).entReq = false := rfl
@[simp] theorem reject_entData (code : ResultCode) (s : State) : (reject code s).entData = none := rfl
@[simp] theorem reject_busResp (code : ResultCode) (s : State) : (reject code s).busResp = s.busResp := rfl
@[simp] theorem reject_events (code : ResultCode) (s : State) : (reject code s).events = s.events := rfl

/-! ## zeroize -/

@[simp] theorem zeroize_cfg (s : State) : (zeroize s).cfg = s.cfg := rfl
@[simp] theorem zeroize_rst (s : State) : (zeroize s).rst = s.rst := rfl
@[simp] theorem zeroize_lifecycle (s : State) : (zeroize s).lifecycle = s.lifecycle := rfl
@[simp] theorem zeroize_phase (s : State) : (zeroize s).phase = s.phase := rfl
@[simp] theorem zeroize_cmdL (s : State) : (zeroize s).cmdL = s.cmdL := rfl
@[simp] theorem zeroize_ws (s : State) : (zeroize s).ws = WorkingState.zero := rfl
@[simp] theorem zeroize_rc (s : State) : (zeroize s).rc = 0#64 := rfl
@[simp] theorem zeroize_ssL (s : State) : (zeroize s).ssL = 0#16 := rfl
@[simp] theorem zeroize_mechL (s : State) : (zeroize s).mechL = .hash := rfl
@[simp] theorem zeroize_tdesL (s : State) : (zeroize s).tdesL = false := rfl
@[simp] theorem zeroize_mechSel (s : State) : (zeroize s).mechSel = s.mechSel := rfl
@[simp] theorem zeroize_secStrength (s : State) : (zeroize s).secStrength = s.secStrength := rfl
@[simp] theorem zeroize_done (s : State) : (zeroize s).done = s.done := rfl
@[simp] theorem zeroize_cmdDropped (s : State) : (zeroize s).cmdDropped = s.cmdDropped := rfl
@[simp] theorem zeroize_err (s : State) : (zeroize s).err = s.err := rfl
@[simp] theorem zeroize_result (s : State) : (zeroize s).result = s.result := rfl
@[simp] theorem zeroize_reqLen (s : State) : (zeroize s).reqLen = s.reqLen := rfl
@[simp] theorem zeroize_aiLen (s : State) : (zeroize s).aiLen = s.aiLen := rfl
@[simp] theorem zeroize_persLen (s : State) : (zeroize s).persLen = s.persLen := rfl
@[simp] theorem zeroize_nonceLen (s : State) : (zeroize s).nonceLen = s.nonceLen := rfl
@[simp] theorem zeroize_doneIe (s : State) : (zeroize s).doneIe = s.doneIe := rfl
@[simp] theorem zeroize_mem (s : State) : (zeroize s).mem = Memory.clearBytes s.mem (Buf.base .out) outBytes := rfl
@[simp] theorem zeroize_entReq (s : State) : (zeroize s).entReq = s.entReq := rfl
@[simp] theorem zeroize_entData (s : State) : (zeroize s).entData = s.entData := rfl
@[simp] theorem zeroize_busResp (s : State) : (zeroize s).busResp = s.busResp := rfl
@[simp] theorem zeroize_events (s : State) : (zeroize s).events = s.events := rfl

/-! ## awaitEntropy -/

@[simp] theorem awaitEntropy_cfg (s : State) : (awaitEntropy s).cfg = s.cfg := rfl
@[simp] theorem awaitEntropy_rst (s : State) : (awaitEntropy s).rst = s.rst := rfl
@[simp] theorem awaitEntropy_lifecycle (s : State) : (awaitEntropy s).lifecycle = s.lifecycle := rfl
@[simp] theorem awaitEntropy_phase (s : State) : (awaitEntropy s).phase = s.phase := rfl
@[simp] theorem awaitEntropy_cmdL (s : State) : (awaitEntropy s).cmdL = s.cmdL := rfl
@[simp] theorem awaitEntropy_ws (s : State) : (awaitEntropy s).ws = s.ws := rfl
@[simp] theorem awaitEntropy_rc (s : State) : (awaitEntropy s).rc = s.rc := rfl
@[simp] theorem awaitEntropy_ssL (s : State) : (awaitEntropy s).ssL = s.ssL := rfl
@[simp] theorem awaitEntropy_mechL (s : State) : (awaitEntropy s).mechL = s.mechL := rfl
@[simp] theorem awaitEntropy_tdesL (s : State) : (awaitEntropy s).tdesL = s.tdesL := rfl
@[simp] theorem awaitEntropy_mechSel (s : State) : (awaitEntropy s).mechSel = s.mechSel := rfl
@[simp] theorem awaitEntropy_secStrength (s : State) : (awaitEntropy s).secStrength = s.secStrength := rfl
@[simp] theorem awaitEntropy_done (s : State) : (awaitEntropy s).done = s.done := rfl
@[simp] theorem awaitEntropy_cmdDropped (s : State) : (awaitEntropy s).cmdDropped = s.cmdDropped := rfl
@[simp] theorem awaitEntropy_err (s : State) : (awaitEntropy s).err = s.err := rfl
@[simp] theorem awaitEntropy_result (s : State) : (awaitEntropy s).result = s.result := rfl
@[simp] theorem awaitEntropy_reqLen (s : State) : (awaitEntropy s).reqLen = s.reqLen := rfl
@[simp] theorem awaitEntropy_aiLen (s : State) : (awaitEntropy s).aiLen = s.aiLen := rfl
@[simp] theorem awaitEntropy_persLen (s : State) : (awaitEntropy s).persLen = s.persLen := rfl
@[simp] theorem awaitEntropy_nonceLen (s : State) : (awaitEntropy s).nonceLen = s.nonceLen := rfl
@[simp] theorem awaitEntropy_doneIe (s : State) : (awaitEntropy s).doneIe = s.doneIe := rfl
@[simp] theorem awaitEntropy_mem (s : State) : (awaitEntropy s).mem = s.mem := rfl
@[simp] theorem awaitEntropy_entReq (s : State) : (awaitEntropy s).entReq = true := rfl
@[simp] theorem awaitEntropy_entData (s : State) : (awaitEntropy s).entData = s.entData := rfl
@[simp] theorem awaitEntropy_busResp (s : State) : (awaitEntropy s).busResp = s.busResp := rfl
@[simp] theorem awaitEntropy_events (s : State) : (awaitEntropy s).events = s.events := rfl

/-! ## accept -/

@[simp] theorem accept_cfg (w : Word) (s : State) : (accept w s).cfg = s.cfg := rfl
@[simp] theorem accept_rst (w : Word) (s : State) : (accept w s).rst = s.rst := rfl
@[simp] theorem accept_lifecycle (w : Word) (s : State) : (accept w s).lifecycle = s.lifecycle := rfl
@[simp] theorem accept_phase (w : Word) (s : State) : (accept w s).phase = .busy := rfl
@[simp] theorem accept_cmdL (w : Word) (s : State) : (accept w s).cmdL = ⟨opcodeOf w, prOf w, aipOf w⟩ := rfl
@[simp] theorem accept_ws (w : Word) (s : State) : (accept w s).ws = s.ws := rfl
@[simp] theorem accept_rc (w : Word) (s : State) : (accept w s).rc = s.rc := rfl
@[simp] theorem accept_ssL (w : Word) (s : State) : (accept w s).ssL = s.ssL := rfl
@[simp] theorem accept_mechL (w : Word) (s : State) : (accept w s).mechL = s.mechL := rfl
@[simp] theorem accept_tdesL (w : Word) (s : State) : (accept w s).tdesL = s.tdesL := rfl
@[simp] theorem accept_mechSel (w : Word) (s : State) : (accept w s).mechSel = s.mechSel := rfl
@[simp] theorem accept_secStrength (w : Word) (s : State) : (accept w s).secStrength = s.secStrength := rfl
@[simp] theorem accept_done (w : Word) (s : State) : (accept w s).done = false := rfl
@[simp] theorem accept_cmdDropped (w : Word) (s : State) : (accept w s).cmdDropped = s.cmdDropped := rfl
@[simp] theorem accept_err (w : Word) (s : State) : (accept w s).err = s.err := rfl
@[simp] theorem accept_result (w : Word) (s : State) : (accept w s).result = s.result := rfl
@[simp] theorem accept_reqLen (w : Word) (s : State) : (accept w s).reqLen = s.reqLen := rfl
@[simp] theorem accept_aiLen (w : Word) (s : State) : (accept w s).aiLen = s.aiLen := rfl
@[simp] theorem accept_persLen (w : Word) (s : State) : (accept w s).persLen = s.persLen := rfl
@[simp] theorem accept_nonceLen (w : Word) (s : State) : (accept w s).nonceLen = s.nonceLen := rfl
@[simp] theorem accept_doneIe (w : Word) (s : State) : (accept w s).doneIe = s.doneIe := rfl
@[simp] theorem accept_mem (w : Word) (s : State) : (accept w s).mem = s.mem := rfl
@[simp] theorem accept_entReq (w : Word) (s : State) : (accept w s).entReq = s.entReq := rfl
@[simp] theorem accept_entData (w : Word) (s : State) : (accept w s).entData = s.entData := rfl
@[simp] theorem accept_busResp (w : Word) (s : State) : (accept w s).busResp = s.busResp := rfl
@[simp] theorem accept_events (w : Word) (s : State) : (accept w s).events = s.events := rfl

/-! ## dropCommand -/

@[simp] theorem dropCommand_cfg (s : State) : (dropCommand s).cfg = s.cfg := rfl
@[simp] theorem dropCommand_rst (s : State) : (dropCommand s).rst = s.rst := rfl
@[simp] theorem dropCommand_lifecycle (s : State) : (dropCommand s).lifecycle = s.lifecycle := rfl
@[simp] theorem dropCommand_phase (s : State) : (dropCommand s).phase = s.phase := rfl
@[simp] theorem dropCommand_cmdL (s : State) : (dropCommand s).cmdL = s.cmdL := rfl
@[simp] theorem dropCommand_ws (s : State) : (dropCommand s).ws = s.ws := rfl
@[simp] theorem dropCommand_rc (s : State) : (dropCommand s).rc = s.rc := rfl
@[simp] theorem dropCommand_ssL (s : State) : (dropCommand s).ssL = s.ssL := rfl
@[simp] theorem dropCommand_mechL (s : State) : (dropCommand s).mechL = s.mechL := rfl
@[simp] theorem dropCommand_tdesL (s : State) : (dropCommand s).tdesL = s.tdesL := rfl
@[simp] theorem dropCommand_mechSel (s : State) : (dropCommand s).mechSel = s.mechSel := rfl
@[simp] theorem dropCommand_secStrength (s : State) : (dropCommand s).secStrength = s.secStrength := rfl
@[simp] theorem dropCommand_done (s : State) : (dropCommand s).done = s.done := rfl
@[simp] theorem dropCommand_cmdDropped (s : State) : (dropCommand s).cmdDropped = true := rfl
@[simp] theorem dropCommand_err (s : State) : (dropCommand s).err = s.err := rfl
@[simp] theorem dropCommand_result (s : State) : (dropCommand s).result = s.result := rfl
@[simp] theorem dropCommand_reqLen (s : State) : (dropCommand s).reqLen = s.reqLen := rfl
@[simp] theorem dropCommand_aiLen (s : State) : (dropCommand s).aiLen = s.aiLen := rfl
@[simp] theorem dropCommand_persLen (s : State) : (dropCommand s).persLen = s.persLen := rfl
@[simp] theorem dropCommand_nonceLen (s : State) : (dropCommand s).nonceLen = s.nonceLen := rfl
@[simp] theorem dropCommand_doneIe (s : State) : (dropCommand s).doneIe = s.doneIe := rfl
@[simp] theorem dropCommand_mem (s : State) : (dropCommand s).mem = s.mem := rfl
@[simp] theorem dropCommand_entReq (s : State) : (dropCommand s).entReq = s.entReq := rfl
@[simp] theorem dropCommand_entData (s : State) : (dropCommand s).entData = s.entData := rfl
@[simp] theorem dropCommand_busResp (s : State) : (dropCommand s).busResp = s.busResp := rfl
@[simp] theorem dropCommand_events (s : State) : (dropCommand s).events = s.events := rfl

/-! ## respond -/

@[simp] theorem respond_cfg (r : BusResponse) (s : State) : (respond r s).cfg = s.cfg := rfl
@[simp] theorem respond_rst (r : BusResponse) (s : State) : (respond r s).rst = s.rst := rfl
@[simp] theorem respond_lifecycle (r : BusResponse) (s : State) : (respond r s).lifecycle = s.lifecycle := rfl
@[simp] theorem respond_phase (r : BusResponse) (s : State) : (respond r s).phase = s.phase := rfl
@[simp] theorem respond_cmdL (r : BusResponse) (s : State) : (respond r s).cmdL = s.cmdL := rfl
@[simp] theorem respond_ws (r : BusResponse) (s : State) : (respond r s).ws = s.ws := rfl
@[simp] theorem respond_rc (r : BusResponse) (s : State) : (respond r s).rc = s.rc := rfl
@[simp] theorem respond_ssL (r : BusResponse) (s : State) : (respond r s).ssL = s.ssL := rfl
@[simp] theorem respond_mechL (r : BusResponse) (s : State) : (respond r s).mechL = s.mechL := rfl
@[simp] theorem respond_tdesL (r : BusResponse) (s : State) : (respond r s).tdesL = s.tdesL := rfl
@[simp] theorem respond_mechSel (r : BusResponse) (s : State) : (respond r s).mechSel = s.mechSel := rfl
@[simp] theorem respond_secStrength (r : BusResponse) (s : State) : (respond r s).secStrength = s.secStrength := rfl
@[simp] theorem respond_done (r : BusResponse) (s : State) : (respond r s).done = s.done := rfl
@[simp] theorem respond_cmdDropped (r : BusResponse) (s : State) : (respond r s).cmdDropped = s.cmdDropped := rfl
@[simp] theorem respond_err (r : BusResponse) (s : State) : (respond r s).err = s.err := rfl
@[simp] theorem respond_result (r : BusResponse) (s : State) : (respond r s).result = s.result := rfl
@[simp] theorem respond_reqLen (r : BusResponse) (s : State) : (respond r s).reqLen = s.reqLen := rfl
@[simp] theorem respond_aiLen (r : BusResponse) (s : State) : (respond r s).aiLen = s.aiLen := rfl
@[simp] theorem respond_persLen (r : BusResponse) (s : State) : (respond r s).persLen = s.persLen := rfl
@[simp] theorem respond_nonceLen (r : BusResponse) (s : State) : (respond r s).nonceLen = s.nonceLen := rfl
@[simp] theorem respond_doneIe (r : BusResponse) (s : State) : (respond r s).doneIe = s.doneIe := rfl
@[simp] theorem respond_mem (r : BusResponse) (s : State) : (respond r s).mem = s.mem := rfl
@[simp] theorem respond_entReq (r : BusResponse) (s : State) : (respond r s).entReq = s.entReq := rfl
@[simp] theorem respond_entData (r : BusResponse) (s : State) : (respond r s).entData = s.entData := rfl
@[simp] theorem respond_busResp (r : BusResponse) (s : State) : (respond r s).busResp = some r := rfl
@[simp] theorem respond_events (r : BusResponse) (s : State) : (respond r s).events = s.events := rfl

/-! ## writeStatus -/

@[simp] theorem writeStatus_cfg (v : Word) (s : State) : (writeStatus v s).cfg = s.cfg := rfl
@[simp] theorem writeStatus_rst (v : Word) (s : State) : (writeStatus v s).rst = s.rst := rfl
@[simp] theorem writeStatus_lifecycle (v : Word) (s : State) : (writeStatus v s).lifecycle = s.lifecycle := rfl
@[simp] theorem writeStatus_phase (v : Word) (s : State) : (writeStatus v s).phase = s.phase := rfl
@[simp] theorem writeStatus_cmdL (v : Word) (s : State) : (writeStatus v s).cmdL = s.cmdL := rfl
@[simp] theorem writeStatus_ws (v : Word) (s : State) : (writeStatus v s).ws = s.ws := rfl
@[simp] theorem writeStatus_rc (v : Word) (s : State) : (writeStatus v s).rc = s.rc := rfl
@[simp] theorem writeStatus_ssL (v : Word) (s : State) : (writeStatus v s).ssL = s.ssL := rfl
@[simp] theorem writeStatus_mechL (v : Word) (s : State) : (writeStatus v s).mechL = s.mechL := rfl
@[simp] theorem writeStatus_tdesL (v : Word) (s : State) : (writeStatus v s).tdesL = s.tdesL := rfl
@[simp] theorem writeStatus_mechSel (v : Word) (s : State) : (writeStatus v s).mechSel = s.mechSel := rfl
@[simp] theorem writeStatus_secStrength (v : Word) (s : State) : (writeStatus v s).secStrength = s.secStrength := rfl
@[simp] theorem writeStatus_done (v : Word) (s : State) : (writeStatus v s).done = (s.done && !v.getLsbD 3) := rfl
@[simp] theorem writeStatus_cmdDropped (v : Word) (s : State) : (writeStatus v s).cmdDropped = (s.cmdDropped && !v.getLsbD 12) := rfl
@[simp] theorem writeStatus_err (v : Word) (s : State) : (writeStatus v s).err = s.err := rfl
@[simp] theorem writeStatus_result (v : Word) (s : State) : (writeStatus v s).result = s.result := rfl
@[simp] theorem writeStatus_reqLen (v : Word) (s : State) : (writeStatus v s).reqLen = s.reqLen := rfl
@[simp] theorem writeStatus_aiLen (v : Word) (s : State) : (writeStatus v s).aiLen = s.aiLen := rfl
@[simp] theorem writeStatus_persLen (v : Word) (s : State) : (writeStatus v s).persLen = s.persLen := rfl
@[simp] theorem writeStatus_nonceLen (v : Word) (s : State) : (writeStatus v s).nonceLen = s.nonceLen := rfl
@[simp] theorem writeStatus_doneIe (v : Word) (s : State) : (writeStatus v s).doneIe = s.doneIe := rfl
@[simp] theorem writeStatus_mem (v : Word) (s : State) : (writeStatus v s).mem = s.mem := rfl
@[simp] theorem writeStatus_entReq (v : Word) (s : State) : (writeStatus v s).entReq = s.entReq := rfl
@[simp] theorem writeStatus_entData (v : Word) (s : State) : (writeStatus v s).entData = s.entData := rfl
@[simp] theorem writeStatus_busResp (v : Word) (s : State) : (writeStatus v s).busResp = s.busResp := rfl
@[simp] theorem writeStatus_events (v : Word) (s : State) : (writeStatus v s).events = s.events := rfl

/-! ## writeWindow -/

@[simp] theorem writeWindow_cfg (v : Word) (b : Buf) (i : Nat) (s : State) : (writeWindow v b i s).cfg = s.cfg := rfl
@[simp] theorem writeWindow_rst (v : Word) (b : Buf) (i : Nat) (s : State) : (writeWindow v b i s).rst = s.rst := rfl
@[simp] theorem writeWindow_lifecycle (v : Word) (b : Buf) (i : Nat) (s : State) : (writeWindow v b i s).lifecycle = s.lifecycle := rfl
@[simp] theorem writeWindow_phase (v : Word) (b : Buf) (i : Nat) (s : State) : (writeWindow v b i s).phase = s.phase := rfl
@[simp] theorem writeWindow_cmdL (v : Word) (b : Buf) (i : Nat) (s : State) : (writeWindow v b i s).cmdL = s.cmdL := rfl
@[simp] theorem writeWindow_ws (v : Word) (b : Buf) (i : Nat) (s : State) : (writeWindow v b i s).ws = s.ws := rfl
@[simp] theorem writeWindow_rc (v : Word) (b : Buf) (i : Nat) (s : State) : (writeWindow v b i s).rc = s.rc := rfl
@[simp] theorem writeWindow_ssL (v : Word) (b : Buf) (i : Nat) (s : State) : (writeWindow v b i s).ssL = s.ssL := rfl
@[simp] theorem writeWindow_mechL (v : Word) (b : Buf) (i : Nat) (s : State) : (writeWindow v b i s).mechL = s.mechL := rfl
@[simp] theorem writeWindow_tdesL (v : Word) (b : Buf) (i : Nat) (s : State) : (writeWindow v b i s).tdesL = s.tdesL := rfl
@[simp] theorem writeWindow_mechSel (v : Word) (b : Buf) (i : Nat) (s : State) : (writeWindow v b i s).mechSel = s.mechSel := rfl
@[simp] theorem writeWindow_secStrength (v : Word) (b : Buf) (i : Nat) (s : State) : (writeWindow v b i s).secStrength = s.secStrength := rfl
@[simp] theorem writeWindow_done (v : Word) (b : Buf) (i : Nat) (s : State) : (writeWindow v b i s).done = s.done := rfl
@[simp] theorem writeWindow_cmdDropped (v : Word) (b : Buf) (i : Nat) (s : State) : (writeWindow v b i s).cmdDropped = s.cmdDropped := rfl
@[simp] theorem writeWindow_err (v : Word) (b : Buf) (i : Nat) (s : State) : (writeWindow v b i s).err = s.err := rfl
@[simp] theorem writeWindow_result (v : Word) (b : Buf) (i : Nat) (s : State) : (writeWindow v b i s).result = s.result := rfl
@[simp] theorem writeWindow_reqLen (v : Word) (b : Buf) (i : Nat) (s : State) : (writeWindow v b i s).reqLen = s.reqLen := rfl
@[simp] theorem writeWindow_aiLen (v : Word) (b : Buf) (i : Nat) (s : State) : (writeWindow v b i s).aiLen = s.aiLen := rfl
@[simp] theorem writeWindow_persLen (v : Word) (b : Buf) (i : Nat) (s : State) : (writeWindow v b i s).persLen = s.persLen := rfl
@[simp] theorem writeWindow_nonceLen (v : Word) (b : Buf) (i : Nat) (s : State) : (writeWindow v b i s).nonceLen = s.nonceLen := rfl
@[simp] theorem writeWindow_doneIe (v : Word) (b : Buf) (i : Nat) (s : State) : (writeWindow v b i s).doneIe = s.doneIe := rfl
@[simp] theorem writeWindow_mem (v : Word) (b : Buf) (i : Nat) (s : State) : (writeWindow v b i s).mem = Memory.writeBytes s.mem (b.base + i) ((bytesOfWord v).take (b.size s.cfg - i)) := rfl
@[simp] theorem writeWindow_entReq (v : Word) (b : Buf) (i : Nat) (s : State) : (writeWindow v b i s).entReq = s.entReq := rfl
@[simp] theorem writeWindow_entData (v : Word) (b : Buf) (i : Nat) (s : State) : (writeWindow v b i s).entData = s.entData := rfl
@[simp] theorem writeWindow_busResp (v : Word) (b : Buf) (i : Nat) (s : State) : (writeWindow v b i s).busResp = s.busResp := rfl
@[simp] theorem writeWindow_events (v : Word) (b : Buf) (i : Nat) (s : State) : (writeWindow v b i s).events = s.events := rfl

/-! ## instantiateCommit -/

@[simp] theorem instantiateCommit_cfg (m : Mech) (e : ByteString) (s : State) : (instantiateCommit m e s).cfg = s.cfg := rfl
@[simp] theorem instantiateCommit_rst (m : Mech) (e : ByteString) (s : State) : (instantiateCommit m e s).rst = s.rst := rfl
@[simp] theorem instantiateCommit_lifecycle (m : Mech) (e : ByteString) (s : State) : (instantiateCommit m e s).lifecycle = .ready := rfl
@[simp] theorem instantiateCommit_phase (m : Mech) (e : ByteString) (s : State) : (instantiateCommit m e s).phase = s.phase := rfl
@[simp] theorem instantiateCommit_cmdL (m : Mech) (e : ByteString) (s : State) : (instantiateCommit m e s).cmdL = s.cmdL := rfl
@[simp] theorem instantiateCommit_ws (m : Mech) (e : ByteString) (s : State) : (instantiateCommit m e s).ws = mechInstantiate s.cfg m e s.nonceString s.persString := rfl
@[simp] theorem instantiateCommit_rc (m : Mech) (e : ByteString) (s : State) : (instantiateCommit m e s).rc = 1#64 := rfl
@[simp] theorem instantiateCommit_ssL (m : Mech) (e : ByteString) (s : State) : (instantiateCommit m e s).ssL = s.secStrength := rfl
@[simp] theorem instantiateCommit_mechL (m : Mech) (e : ByteString) (s : State) : (instantiateCommit m e s).mechL = m := rfl
@[simp] theorem instantiateCommit_tdesL (m : Mech) (e : ByteString) (s : State) : (instantiateCommit m e s).tdesL = (m == .ctr && s.cfg.cIsTdea) := rfl
@[simp] theorem instantiateCommit_mechSel (m : Mech) (e : ByteString) (s : State) : (instantiateCommit m e s).mechSel = s.mechSel := rfl
@[simp] theorem instantiateCommit_secStrength (m : Mech) (e : ByteString) (s : State) : (instantiateCommit m e s).secStrength = s.secStrength := rfl
@[simp] theorem instantiateCommit_done (m : Mech) (e : ByteString) (s : State) : (instantiateCommit m e s).done = s.done := rfl
@[simp] theorem instantiateCommit_cmdDropped (m : Mech) (e : ByteString) (s : State) : (instantiateCommit m e s).cmdDropped = s.cmdDropped := rfl
@[simp] theorem instantiateCommit_err (m : Mech) (e : ByteString) (s : State) : (instantiateCommit m e s).err = s.err := rfl
@[simp] theorem instantiateCommit_result (m : Mech) (e : ByteString) (s : State) : (instantiateCommit m e s).result = s.result := rfl
@[simp] theorem instantiateCommit_reqLen (m : Mech) (e : ByteString) (s : State) : (instantiateCommit m e s).reqLen = s.reqLen := rfl
@[simp] theorem instantiateCommit_aiLen (m : Mech) (e : ByteString) (s : State) : (instantiateCommit m e s).aiLen = s.aiLen := rfl
@[simp] theorem instantiateCommit_persLen (m : Mech) (e : ByteString) (s : State) : (instantiateCommit m e s).persLen = s.persLen := rfl
@[simp] theorem instantiateCommit_nonceLen (m : Mech) (e : ByteString) (s : State) : (instantiateCommit m e s).nonceLen = s.nonceLen := rfl
@[simp] theorem instantiateCommit_doneIe (m : Mech) (e : ByteString) (s : State) : (instantiateCommit m e s).doneIe = s.doneIe := rfl
@[simp] theorem instantiateCommit_mem (m : Mech) (e : ByteString) (s : State) : (instantiateCommit m e s).mem = s.mem := rfl
@[simp] theorem instantiateCommit_entReq (m : Mech) (e : ByteString) (s : State) : (instantiateCommit m e s).entReq = s.entReq := rfl
@[simp] theorem instantiateCommit_entData (m : Mech) (e : ByteString) (s : State) : (instantiateCommit m e s).entData = s.entData := rfl
@[simp] theorem instantiateCommit_busResp (m : Mech) (e : ByteString) (s : State) : (instantiateCommit m e s).busResp = s.busResp := rfl
@[simp] theorem instantiateCommit_events (m : Mech) (e : ByteString) (s : State) : (instantiateCommit m e s).events = s.events := rfl

/-! ## reseedCommit -/

@[simp] theorem reseedCommit_cfg (aip : Bool) (e : ByteString) (s : State) : (reseedCommit aip e s).cfg = s.cfg := rfl
@[simp] theorem reseedCommit_rst (aip : Bool) (e : ByteString) (s : State) : (reseedCommit aip e s).rst = s.rst := rfl
@[simp] theorem reseedCommit_lifecycle (aip : Bool) (e : ByteString) (s : State) : (reseedCommit aip e s).lifecycle = s.lifecycle := rfl
@[simp] theorem reseedCommit_phase (aip : Bool) (e : ByteString) (s : State) : (reseedCommit aip e s).phase = s.phase := rfl
@[simp] theorem reseedCommit_cmdL (aip : Bool) (e : ByteString) (s : State) : (reseedCommit aip e s).cmdL = s.cmdL := rfl
@[simp] theorem reseedCommit_ws (aip : Bool) (e : ByteString) (s : State) : (reseedCommit aip e s).ws = mechReseed s.cfg s.mechL s.tdesL s.ws e (orEmpty (s.additionalInput aip)) := rfl
@[simp] theorem reseedCommit_rc (aip : Bool) (e : ByteString) (s : State) : (reseedCommit aip e s).rc = 1#64 := rfl
@[simp] theorem reseedCommit_ssL (aip : Bool) (e : ByteString) (s : State) : (reseedCommit aip e s).ssL = s.ssL := rfl
@[simp] theorem reseedCommit_mechL (aip : Bool) (e : ByteString) (s : State) : (reseedCommit aip e s).mechL = s.mechL := rfl
@[simp] theorem reseedCommit_tdesL (aip : Bool) (e : ByteString) (s : State) : (reseedCommit aip e s).tdesL = s.tdesL := rfl
@[simp] theorem reseedCommit_mechSel (aip : Bool) (e : ByteString) (s : State) : (reseedCommit aip e s).mechSel = s.mechSel := rfl
@[simp] theorem reseedCommit_secStrength (aip : Bool) (e : ByteString) (s : State) : (reseedCommit aip e s).secStrength = s.secStrength := rfl
@[simp] theorem reseedCommit_done (aip : Bool) (e : ByteString) (s : State) : (reseedCommit aip e s).done = s.done := rfl
@[simp] theorem reseedCommit_cmdDropped (aip : Bool) (e : ByteString) (s : State) : (reseedCommit aip e s).cmdDropped = s.cmdDropped := rfl
@[simp] theorem reseedCommit_err (aip : Bool) (e : ByteString) (s : State) : (reseedCommit aip e s).err = s.err := rfl
@[simp] theorem reseedCommit_result (aip : Bool) (e : ByteString) (s : State) : (reseedCommit aip e s).result = s.result := rfl
@[simp] theorem reseedCommit_reqLen (aip : Bool) (e : ByteString) (s : State) : (reseedCommit aip e s).reqLen = s.reqLen := rfl
@[simp] theorem reseedCommit_aiLen (aip : Bool) (e : ByteString) (s : State) : (reseedCommit aip e s).aiLen = s.aiLen := rfl
@[simp] theorem reseedCommit_persLen (aip : Bool) (e : ByteString) (s : State) : (reseedCommit aip e s).persLen = s.persLen := rfl
@[simp] theorem reseedCommit_nonceLen (aip : Bool) (e : ByteString) (s : State) : (reseedCommit aip e s).nonceLen = s.nonceLen := rfl
@[simp] theorem reseedCommit_doneIe (aip : Bool) (e : ByteString) (s : State) : (reseedCommit aip e s).doneIe = s.doneIe := rfl
@[simp] theorem reseedCommit_mem (aip : Bool) (e : ByteString) (s : State) : (reseedCommit aip e s).mem = s.mem := rfl
@[simp] theorem reseedCommit_entReq (aip : Bool) (e : ByteString) (s : State) : (reseedCommit aip e s).entReq = s.entReq := rfl
@[simp] theorem reseedCommit_entData (aip : Bool) (e : ByteString) (s : State) : (reseedCommit aip e s).entData = s.entData := rfl
@[simp] theorem reseedCommit_busResp (aip : Bool) (e : ByteString) (s : State) : (reseedCommit aip e s).busResp = s.busResp := rfl
@[simp] theorem reseedCommit_events (aip : Bool) (e : ByteString) (s : State) : (reseedCommit aip e s).events = s.events := rfl

/-! ## generateCommit -/

@[simp] theorem generateCommit_cfg (w : WorkingState) (rc : BitVec 64) (ai : Option ByteString) (s : State) : (generateCommit w rc ai s).cfg = s.cfg := rfl
@[simp] theorem generateCommit_rst (w : WorkingState) (rc : BitVec 64) (ai : Option ByteString) (s : State) : (generateCommit w rc ai s).rst = s.rst := rfl
@[simp] theorem generateCommit_lifecycle (w : WorkingState) (rc : BitVec 64) (ai : Option ByteString) (s : State) : (generateCommit w rc ai s).lifecycle = s.lifecycle := rfl
@[simp] theorem generateCommit_phase (w : WorkingState) (rc : BitVec 64) (ai : Option ByteString) (s : State) : (generateCommit w rc ai s).phase = s.phase := rfl
@[simp] theorem generateCommit_cmdL (w : WorkingState) (rc : BitVec 64) (ai : Option ByteString) (s : State) : (generateCommit w rc ai s).cmdL = s.cmdL := rfl
@[simp] theorem generateCommit_ws (w : WorkingState) (rc : BitVec 64) (ai : Option ByteString) (s : State) : (generateCommit w rc ai s).ws = (mechGenerate s.cfg s.mechL s.tdesL w rc.toNat s.requestBytes ai).2 := rfl
@[simp] theorem generateCommit_rc (w : WorkingState) (rc : BitVec 64) (ai : Option ByteString) (s : State) : (generateCommit w rc ai s).rc = rc + 1#64 := rfl
@[simp] theorem generateCommit_ssL (w : WorkingState) (rc : BitVec 64) (ai : Option ByteString) (s : State) : (generateCommit w rc ai s).ssL = s.ssL := rfl
@[simp] theorem generateCommit_mechL (w : WorkingState) (rc : BitVec 64) (ai : Option ByteString) (s : State) : (generateCommit w rc ai s).mechL = s.mechL := rfl
@[simp] theorem generateCommit_tdesL (w : WorkingState) (rc : BitVec 64) (ai : Option ByteString) (s : State) : (generateCommit w rc ai s).tdesL = s.tdesL := rfl
@[simp] theorem generateCommit_mechSel (w : WorkingState) (rc : BitVec 64) (ai : Option ByteString) (s : State) : (generateCommit w rc ai s).mechSel = s.mechSel := rfl
@[simp] theorem generateCommit_secStrength (w : WorkingState) (rc : BitVec 64) (ai : Option ByteString) (s : State) : (generateCommit w rc ai s).secStrength = s.secStrength := rfl
@[simp] theorem generateCommit_done (w : WorkingState) (rc : BitVec 64) (ai : Option ByteString) (s : State) : (generateCommit w rc ai s).done = s.done := rfl
@[simp] theorem generateCommit_cmdDropped (w : WorkingState) (rc : BitVec 64) (ai : Option ByteString) (s : State) : (generateCommit w rc ai s).cmdDropped = s.cmdDropped := rfl
@[simp] theorem generateCommit_err (w : WorkingState) (rc : BitVec 64) (ai : Option ByteString) (s : State) : (generateCommit w rc ai s).err = s.err := rfl
@[simp] theorem generateCommit_result (w : WorkingState) (rc : BitVec 64) (ai : Option ByteString) (s : State) : (generateCommit w rc ai s).result = s.result := rfl
@[simp] theorem generateCommit_reqLen (w : WorkingState) (rc : BitVec 64) (ai : Option ByteString) (s : State) : (generateCommit w rc ai s).reqLen = s.reqLen := rfl
@[simp] theorem generateCommit_aiLen (w : WorkingState) (rc : BitVec 64) (ai : Option ByteString) (s : State) : (generateCommit w rc ai s).aiLen = s.aiLen := rfl
@[simp] theorem generateCommit_persLen (w : WorkingState) (rc : BitVec 64) (ai : Option ByteString) (s : State) : (generateCommit w rc ai s).persLen = s.persLen := rfl
@[simp] theorem generateCommit_nonceLen (w : WorkingState) (rc : BitVec 64) (ai : Option ByteString) (s : State) : (generateCommit w rc ai s).nonceLen = s.nonceLen := rfl
@[simp] theorem generateCommit_doneIe (w : WorkingState) (rc : BitVec 64) (ai : Option ByteString) (s : State) : (generateCommit w rc ai s).doneIe = s.doneIe := rfl
@[simp] theorem generateCommit_mem (w : WorkingState) (rc : BitVec 64) (ai : Option ByteString) (s : State) : (generateCommit w rc ai s).mem = Memory.writeBytes s.mem (Buf.base .out) (mechGenerate s.cfg s.mechL s.tdesL w rc.toNat s.requestBytes ai).1 := rfl
@[simp] theorem generateCommit_entReq (w : WorkingState) (rc : BitVec 64) (ai : Option ByteString) (s : State) : (generateCommit w rc ai s).entReq = s.entReq := rfl
@[simp] theorem generateCommit_entData (w : WorkingState) (rc : BitVec 64) (ai : Option ByteString) (s : State) : (generateCommit w rc ai s).entData = s.entData := rfl
@[simp] theorem generateCommit_busResp (w : WorkingState) (rc : BitVec 64) (ai : Option ByteString) (s : State) : (generateCommit w rc ai s).busResp = s.busResp := rfl
@[simp] theorem generateCommit_events (w : WorkingState) (rc : BitVec 64) (ai : Option ByteString) (s : State) : (generateCommit w rc ai s).events = s.events := rfl

end Sys2Proof.Machine
end

