-- ==== Sys2Proof/Laws/Bus.lean ====
section
/-! SUPPORT. The register map and the bus, said once: which target an offset reaches, what an aligned access does. -/

namespace Sys2Proof.Machine

/-! ## The map (10_state.md R47) -/

@[simp] theorem targetOf_reg (r : Reg) : targetOf r.offset = .reg r := by cases r <;> decide

theorem targetOf_reserved {off : Nat} (h : (0x04C ≤ off ∧ off < 0x400) ∨ (0x1000 ≤ off ∧ off < 0x10000)) :
    targetOf off = .reserved := by
  unfold targetOf
  rcases h with h | h
  · have : Reg.ofOffset off = none := by
      simp only [Reg.ofOffset, List.find?_eq_none, beq_iff_eq]
      intro r _
      cases r <;> simp only [Reg.offset] <;> omega
    simp [this, h.2]
  · rw [if_neg (by omega), if_neg (by omega), if_neg (by omega), if_neg (by omega), if_pos (by omega)]

/-- An offset in a buffer's window (R47). -/
theorem targetOf_window (b : Buf) (i : Nat) (h : i < if b = .out then 0x10000 else 0x400) :
    targetOf (b.base + i) = .window b i := by
  cases b <;> simp [Buf.base] at h ⊢ <;> unfold targetOf <;> (repeat rw [if_neg (by omega)]) <;>
    (try rw [if_pos (by omega)]) <;> simp

/-! ## Aligned accesses of the block's space (20_memory.md R71, R72) -/

theorem inSpace_offset (c : Config) {off : Nat} (h : off < 0x20000) : inSpace c (c.drbgBase + off) = true := by
  simp [inSpace, spaceBytes, h]

/-- An aligned read while reset is released. -/
theorem busAccess_read (s : State) {off : Nat} (h1 : off < 0x20000) (h4 : off % 4 = 0) (hr : s.rst = false) :
    busAccess (.read (s.cfg.drbgBase + off) 4) s
      = .next (respond (.readResp false (readTarget s (targetOf off))) s) := by
  simp [busAccess, BusAccess.addr, inSpace_offset _ h1, wellShaped, BusAccess.width, h4, performAccess, hr]

/-- An aligned write of any target but CMD while reset is released. -/
theorem busAccess_write (s : State) {off : Nat} (v : Word) (h1 : off < 0x20000) (h4 : off % 4 = 0) (hr : s.rst = false)
    (hc : targetOf off ≠ .reg .cmd) :
    busAccess (.write (s.cfg.drbgBase + off) 4 v) s
      = .next (writeTarget v (respond (.writeResp false) s) (targetOf off)) := by
  simp [busAccess, BusAccess.addr, inSpace_offset _ h1, wellShaped, BusAccess.width, h4, performAccess, hr, hc]

/-- An aligned write of CMD while reset is released. -/
theorem busAccess_cmd (s : State) (w : Word) (hr : s.rst = false) :
    busAccess (.write (s.cfg.drbgBase + 0x00C) 4 w) s = writeCmd w (respond (.writeResp false) s) := by
  have hc : targetOf 0x00C = .reg .cmd := targetOf_reg .cmd
  simp [busAccess, BusAccess.addr, inSpace, spaceBytes, wellShaped, BusAccess.width, performAccess, hr, hc]

/-! ## Windows (20_memory.md R74, R78) -/

/-- At or above a buffer's size its window reads 0 and ignores writes. -/
theorem window_beyond (s : State) (b : Buf) {i : Nat} (v : Word) (h : b.size s.cfg ≤ i) :
    readWindow s b i = 0#32 ∧ writeWindow v b i s = s := by
  constructor
  · simp only [readWindow, windowByte]
    rw [if_neg (by omega), if_neg (by omega), if_neg (by omega), if_neg (by omega)]
    rfl
  · have : b.size s.cfg - i = 0 := by omega
    simp [writeWindow, this]

/-- The bytes of a word in little-endian lanes (R77). -/
theorem wordOfBytes_lane (b0 b1 b2 b3 : Byte) :
    (wordOfBytes b0 b1 b2 b3).extractLsb' 0 8 = b0 ∧ (wordOfBytes b0 b1 b2 b3).extractLsb' 8 8 = b1
    ∧ (wordOfBytes b0 b1 b2 b3).extractLsb' 16 8 = b2 ∧ (wordOfBytes b0 b1 b2 b3).extractLsb' 24 8 = b3 := by
  refine ⟨?_, ?_, ?_, ?_⟩ <;> ext i hi <;> simp only [wordOfBytes, fieldAt] <;>
    simp [hi, Nat.not_lt.mpr (Nat.le_add_right _ i)] <;> grind

/-! ## Numbers in registers (10_state.md R57) -/

/-- A number that fits its register is read as it is; of a wider one nothing is known (log 19). -/
theorem registerWord_toNat (wide : Word) {n : Nat} (h : n < 2 ^ 32) : (registerWord wide n).toNat = n := by
  rw [registerWord, if_pos h, BitVec.toNat_ofNat, Nat.mod_eq_of_lt h]

end Sys2Proof.Machine
end

