-- ==== Sys2Proof/Laws/Datapath.lean ====
section
/-! SUPPORT. Lengths: of the datapath's strings, of what the primitives' ports return, and of the loops of the mechanisms. -/

namespace Sys2Proof.Machine

/-! ## Arithmetic -/

/-- `ceilDiv a b` blocks of `b` cover `a`. -/
theorem le_ceilDiv_mul (a : Nat) {b : Nat} (hb : 0 < b) : a ≤ ceilDiv a b * b := by
  unfold ceilDiv
  have := Nat.div_add_mod (a + b - 1) b
  have := Nat.mod_lt (a + b - 1) hb
  rw [Nat.mul_comm]
  omega

@[simp] theorem zeros_length (n : Nat) : (zeros n).length = n := by simp [zeros]

@[simp] theorem ones01_length (n : Nat) : (ones01 n).length = n := by simp [ones01]

@[simp] theorem beBytes_length (v n : Nat) : (beBytes v n).length = n := by
  induction n with
  | zero => rfl
  | succ n ih => simp [beBytes, ih]

@[simp] theorem beAdd_length (a : ByteString) (bs : List ByteString) : (beAdd a bs).length = a.length := by simp [beAdd]

@[simp] theorem inc_length (a : ByteString) : (inc a).length = a.length := by simp [inc]

@[simp] theorem leftBytes_length (b : ByteString) (n : Nat) : (leftBytes b n).length = min n b.length := by simp [leftBytes]

@[simp] theorem xorBytes_length (a b : ByteString) : (xorBytes a b).length = min a.length b.length := by simp [xorBytes]

/-- The length of a bit truncation of a whole number of bytes (R114). -/
theorem leftBits_length_of_dvd (b : ByteString) (nb : Nat) (h8 : nb % 8 = 0) (h : nb ≤ 8 * b.length) :
    (leftBits b nb).length = nb / 8 := by
  have : ceilDiv nb 8 = nb / 8 := by unfold ceilDiv; omega
  simp [leftBits, h8, this]
  omega

/-! ## The ports (R61 to R63) -/

@[simp] theorem prims_H_length (c : Config) (m : ByteString) : (c.prims.H m).length = c.hlen := by simp [Config.prims]

@[simp] theorem prims_M_length (c : Config) (k m : ByteString) : (c.prims.M k m).length = c.mlen := by simp [Config.prims]

@[simp] theorem prims_E_length (c : Config) (k x : ByteString) : (c.prims.E k x).length = c.blen := by simp [Config.prims]

@[simp] theorem enc_length (c : Config) (tdes : Bool) (k x : ByteString) : (enc c.prims tdes k x).length = c.blen := by
  simp [enc]

/-! ## The loops of the mechanisms -/

theorem hashDfRounds_length (c : Config) (x : ByteString) (nb k i : Nat) :
    (hashDfRounds c.prims x nb k i).length = k * c.hlen := by
  induction k generalizing i with
  | zero => simp [hashDfRounds]
  | succ k ih => simp [hashDfRounds, ih, Nat.add_mul, Nat.add_comm]

theorem hashgenRounds_length (c : Config) (k : Nat) (d : ByteString) : (hashgenRounds c.prims k d).length = k * c.hlen := by
  induction k generalizing d with
  | zero => simp [hashgenRounds]
  | succ k ih => simp [hashgenRounds, ih, Nat.add_mul, Nat.add_comm]

theorem hmacOutput_length (c : Config) (K : ByteString) (k : Nat) (V : ByteString) :
    (hmacOutput c.prims K k V).1.length = k * c.mlen := by
  induction k generalizing V with
  | zero => simp [hmacOutput]
  | succ k ih => simp [hmacOutput, ih, Nat.add_mul, Nat.add_comm]

theorem dfStretch_length (c : Config) (tdes : Bool) (K : ByteString) (k : Nat) (X : ByteString) :
    (dfStretch c.prims tdes K k X).length = k * c.blen := by
  induction k generalizing X with
  | zero => simp [dfStretch]
  | succ k ih => simp [dfStretch, ih, Nat.add_mul, Nat.add_comm]

theorem ctrStream_length (c : Config) (tdes : Bool) (K : ByteString) (k : Nat) (V : ByteString) :
    (ctrStream c.prims tdes K k V).1.length = k * c.blen := by
  induction k generalizing V with
  | zero => simp [ctrStream]
  | succ k ih => simp [ctrStream, ih, Nat.add_mul, Nat.add_comm]

theorem ctrStream_V_length (c : Config) (tdes : Bool) (K : ByteString) (k : Nat) (V : ByteString) :
    (ctrStream c.prims tdes K k V).2.length = V.length := by
  induction k generalizing V with
  | zero => simp [ctrStream]
  | succ k ih => simp [ctrStream, ih]

/-! ## What a legal configuration gives (R6, R7, R13) -/

/-- Every length of a legal configuration is a 32-bit number (R13). -/
theorem legal_lengths {c : Config} (h : c.legal = true) :
    c.seedlen < 2 ^ 32 ∧ c.hlen < 2 ^ 32 ∧ c.mlen < 2 ^ 32 ∧ c.blen ≤ 16 ∧ c.klen ≤ 32 ∧ c.maxStrBytes ≤ 1024
    ∧ c.entMaxBytes < 2 ^ 32 := by
  simp only [Config.legal, Config.seedlenOK, Config.hashOK, Config.macOK, Config.cipherOK, Config.buffersOK, lengthOK,
    Bool.and_eq_true, decide_eq_true_eq] at h
  have hb := h.1.2.2
  split at hb <;> simp at hb <;> omega

theorem legal_hlen_pos {c : Config} (h : c.legal = true) : 0 < c.hlen := by
  simp only [Config.legal, Config.hashOK, Bool.and_eq_true, decide_eq_true_eq] at h; omega

theorem legal_mlen_pos {c : Config} (h : c.legal = true) : 0 < c.mlen := by
  simp only [Config.legal, Config.macOK, Bool.and_eq_true, decide_eq_true_eq] at h; omega

theorem legal_blen_pos {c : Config} (h : c.legal = true) : 0 < c.blen := by
  simp only [Config.legal, Config.cipherOK, Bool.and_eq_true] at h
  have h := h.1.2.2
  split at h <;> simp at h <;> omega

theorem legal_seedlen {c : Config} (h : c.legal = true) : c.seedlen % 8 = 0 := by
  simp only [Config.legal, Config.seedlenOK, Bool.and_eq_true, decide_eq_true_eq] at h; omega

theorem legal_maxStr {c : Config} (h : c.legal = true) : c.maxStrBytes ≤ 1024 := by
  simp only [Config.legal, Config.buffersOK, Bool.and_eq_true, decide_eq_true_eq] at h; omega

end Sys2Proof.Machine
end

