-- ==== Sys2Proof/Laws/PerInstr.lean ====
section
/-! SUPPORT. One lemma per constructor of Instr: it is well-formed, and its encoding has its fields and no other bit. -/

/-- A command is well-formed; its encoding has its OPCODE, PR and AIP, and every bit it does not use is 0 (R90 to R98, R100). -/
def Sys2Proof.Laws.EncodedFields.Statement (i : Sys2Proof.Instr) : Prop :=
  i.wf = true ∧ Sys2Proof.opcodeOf (Sys2Proof.encode i) = i.opcode ∧ Sys2Proof.prOf (Sys2Proof.encode i) = i.prBit
    ∧ Sys2Proof.aipOf (Sys2Proof.encode i) = i.aipBit ∧ Sys2Proof.encode i &&& i.usedBits = Sys2Proof.encode i

namespace Sys2Proof.Laws

theorem EncodedFields.nop : EncodedFields.Statement .nop :=
  ⟨rfl, by decide, by decide, by decide, by decide⟩

theorem EncodedFields.instantiate : EncodedFields.Statement .instantiate :=
  ⟨rfl, by decide, by decide, by decide, by decide⟩

theorem EncodedFields.reseed (aip : Bool) : EncodedFields.Statement (.reseed aip) := by
  cases aip <;> exact ⟨rfl, by decide, by decide, by decide, by decide⟩

theorem EncodedFields.generate (pr aip : Bool) : EncodedFields.Statement (.generate pr aip) := by
  cases pr <;> cases aip <;> exact ⟨rfl, by decide, by decide, by decide, by decide⟩

theorem EncodedFields.uninstantiate : EncodedFields.Statement .uninstantiate :=
  ⟨rfl, by decide, by decide, by decide, by decide⟩

theorem EncodedFields.reserved5 : EncodedFields.Statement .reserved5 :=
  ⟨rfl, by decide, by decide, by decide, by decide⟩

theorem EncodedFields.reserved6 : EncodedFields.Statement .reserved6 :=
  ⟨rfl, by decide, by decide, by decide, by decide⟩

theorem EncodedFields.reserved7 : EncodedFields.Statement .reserved7 :=
  ⟨rfl, by decide, by decide, by decide, by decide⟩

theorem EncodedFields.reserved8 : EncodedFields.Statement .reserved8 :=
  ⟨rfl, by decide, by decide, by decide, by decide⟩

theorem EncodedFields.reserved9 : EncodedFields.Statement .reserved9 :=
  ⟨rfl, by decide, by decide, by decide, by decide⟩

theorem EncodedFields.reserved10 : EncodedFields.Statement .reserved10 :=
  ⟨rfl, by decide, by decide, by decide, by decide⟩

theorem EncodedFields.reserved11 : EncodedFields.Statement .reserved11 :=
  ⟨rfl, by decide, by decide, by decide, by decide⟩

theorem EncodedFields.reserved12 : EncodedFields.Statement .reserved12 :=
  ⟨rfl, by decide, by decide, by decide, by decide⟩

theorem EncodedFields.reserved13 : EncodedFields.Statement .reserved13 :=
  ⟨rfl, by decide, by decide, by decide, by decide⟩

theorem EncodedFields.reserved14 : EncodedFields.Statement .reserved14 :=
  ⟨rfl, by decide, by decide, by decide, by decide⟩

theorem EncodedFields.reserved15 : EncodedFields.Statement .reserved15 :=
  ⟨rfl, by decide, by decide, by decide, by decide⟩

end Sys2Proof.Laws
end

