-- ==== Sys2Proof/Laws/Step.lean ====
section
/-! SUPPORT. What each meaning and each shared operation can do, said once: the provers cite these instead of unfolding. -/

namespace Sys2Proof.Machine

/-! ## Meanings -/

/-- What INSTANTIATE can do: be rejected, wait for the entropy source, starve, or succeed. -/
theorem execInstantiate_cases (s : State) :
    (∃ code, instantiateChecks s = .error code ∧ execInstantiate s = .next (reject code s))
    ∨ (∃ m, instantiateChecks s = .ok m ∧
        ((s.entData = none ∧ execInstantiate s = .next (awaitEntropy s))
        ∨ (∃ e, s.entData = some e ∧ entropyOK e s.secStrength = true
            ∧ execInstantiate s = .next (complete .ok 0#32 (instantiateCommit m e s)))
        ∨ (∃ e, s.entData = some e ∧ entropyOK e s.secStrength = false ∧ execInstantiate s = .next (starve s)))) := by
  unfold execInstantiate
  cases hc : instantiateChecks s with
  | error code => exact .inl ⟨code, rfl, rfl⟩
  | ok m =>
    refine .inr ⟨m, rfl, ?_⟩
    cases hd : s.entData with
    | none => exact .inl ⟨rfl, rfl⟩
    | some e =>
      cases he : entropyOK e s.secStrength with
      | true => exact .inr (.inl ⟨e, rfl, he, by simp [he]⟩)
      | false => exact .inr (.inr ⟨e, rfl, he, by simp [he]⟩)

/-- What RESEED can do. -/
theorem execReseed_cases (aip : Bool) (s : State) :
    (∃ code, reseedChecks aip s = some code ∧ execReseed aip s = .next (reject code s))
    ∨ (reseedChecks aip s = none ∧
        ((s.entData = none ∧ execReseed aip s = .next (awaitEntropy s))
        ∨ (∃ e, s.entData = some e ∧ entropyOK e s.ssL = true
            ∧ execReseed aip s = .next (complete .ok 0#32 (reseedCommit aip e s)))
        ∨ (∃ e, s.entData = some e ∧ entropyOK e s.ssL = false ∧ execReseed aip s = .next (starve s)))) := by
  unfold execReseed
  cases hc : reseedChecks aip s with
  | some code => exact .inl ⟨code, rfl, rfl⟩
  | none =>
    refine .inr ⟨rfl, ?_⟩
    cases hd : s.entData with
    | none => exact .inl ⟨rfl, rfl⟩
    | some e =>
      cases he : entropyOK e s.ssL with
      | true => exact .inr (.inl ⟨e, rfl, he, by simp [he]⟩)
      | false => exact .inr (.inr ⟨e, rfl, he, by simp [he]⟩)

/-- What GENERATE can do. -/
theorem execGenerate_cases (pr aip : Bool) (s : State) :
    (∃ code, generateChecks aip s = some code ∧ execGenerate pr aip s = .next (reject code s))
    ∨ (generateChecks aip s = none ∧
        ((pr = false ∧ execGenerate pr aip s = .next (generateDone s.ws s.rc (s.additionalInput aip) s))
        ∨ (pr = true ∧ s.entData = none ∧ execGenerate pr aip s = .next (awaitEntropy s))
        ∨ (∃ e, pr = true ∧ s.entData = some e ∧ entropyOK e s.ssL = true
            ∧ execGenerate pr aip s = .next
                (generateDone (mechReseed s.cfg s.mechL s.tdesL s.ws e (orEmpty (s.additionalInput aip))) 1#64 none s))
        ∨ (∃ e, pr = true ∧ s.entData = some e ∧ entropyOK e s.ssL = false
            ∧ execGenerate pr aip s = .next (starve s)))) := by
  unfold execGenerate
  cases hc : generateChecks aip s with
  | some code => exact .inl ⟨code, rfl, rfl⟩
  | none =>
    refine .inr ⟨rfl, ?_⟩
    cases pr with
    | false => exact .inl ⟨rfl, rfl⟩
    | true =>
      cases hd : s.entData with
      | none => exact .inr (.inl ⟨rfl, rfl, rfl⟩)
      | some e =>
        cases he : entropyOK e s.ssL with
        | true => exact .inr (.inr (.inl ⟨e, rfl, rfl, he, by simp [he]⟩))
        | false => exact .inr (.inr (.inr ⟨e, rfl, rfl, he, by simp [he]⟩))

/-! ## Checks (R255) -/

/-- INSTANTIATE's checks pass exactly under these conditions. -/
theorem instantiateChecks_ok_iff (s : State) (m : Mech) :
    instantiateChecks s = .ok m ↔
      s.lifecycle = .uninst ∧ Mech.ofBits s.mechSel = some m
      ∧ s.persLen.toNat ≤ s.cfg.maxStrBytes ∧ s.nonceLen.toNat ≤ s.cfg.maxStrBytes
      ∧ s.secStrength.toNat ≤ s.cfg.mechMaxStrength ∧ s.secStrength.toNat ≤ primMax s.cfg m
      ∧ s.secStrength.toNat ≤ s.cfg.entSizeBits.toNat := by
  unfold instantiateChecks
  by_cases hl : s.lifecycle = .uninst
  · cases hm : Mech.ofBits s.mechSel with
    | none => simp [hl]
    | some m' =>
      simp only [hl, lengthTooLong, strengthMechOK, strengthPrimOK, capacityOK, ne_eq, not_true_eq_false, if_false,
        Bool.or_eq_true, decide_eq_true_eq, Bool.not_eq_true', decide_eq_false_iff_not]
      by_cases hmm : m' = m
      · subst hmm
        split
        · simp; omega
        · split
          · simp; omega
          · split
            · simp; omega
            · split
              · simp; omega
              · simp; omega
      · simp only [Option.some.injEq, hmm, false_and, and_false, iff_false]
        split
        · simp
        · split
          · simp
          · split
            · simp
            · split
              · simp
              · simpa using hmm
  · simp [hl]

/-- RESEED's checks pass exactly under these conditions. -/
theorem reseedChecks_none_iff (aip : Bool) (s : State) :
    reseedChecks aip s = none ↔ s.lifecycle = .ready ∧ (aip = true → s.aiLen.toNat ≤ s.cfg.maxStrBytes) := by
  unfold reseedChecks
  by_cases hl : s.lifecycle = .ready
  · cases aip <;> simp [State.isReady, hl, lengthTooLong]
  · have : (s.lifecycle == Lifecycle.ready) = false := by simpa using hl
    simp [State.isReady, this, hl]

/-- GENERATE's checks pass exactly under these conditions. -/
theorem generateChecks_none_iff (aip : Bool) (s : State) :
    generateChecks aip s = none ↔
      s.lifecycle = .ready ∧ (aip = true → s.aiLen.toNat ≤ s.cfg.maxStrBytes)
      ∧ 8 * s.reqLen.toNat ≤ maxReqBits s.mechL s.tdesL ∧ s.rc.toNat ≤ reseedMax s.mechL s.tdesL := by
  unfold generateChecks
  by_cases hl : s.lifecycle = .ready
  · have h1 : tooLarge s.mechL s.tdesL s.requestBytes = false ↔ 8 * s.reqLen.toNat ≤ maxReqBits s.mechL s.tdesL := by
      unfold tooLarge
      rw [decide_eq_false_iff_not, Nat.not_lt]
      rfl
    have h2 : s.counterPastCeiling = false ↔ s.rc.toNat ≤ reseedMax s.mechL s.tdesL := by
      simp [State.counterPastCeiling, reseedDue]
    rw [← h1, ← h2]
    have h3 : lengthTooLong s.cfg s.aiLen = false ↔ s.aiLen.toNat ≤ s.cfg.maxStrBytes := by simp [lengthTooLong]
    rw [← h3]
    cases aip <;> cases tooLarge s.mechL s.tdesL s.requestBytes <;> cases s.counterPastCeiling <;>
      cases lengthTooLong s.cfg s.aiLen <;> simp [State.isReady, hl]
  · have : (s.lifecycle == Lifecycle.ready) = false := by simpa using hl
    simp [State.isReady, this, hl]

/-! ## Shared operations -/

/-- What `starveChanges` does (R243). -/
theorem starveChanges_cases (s : State) :
    (s.cfg.fatalSticky = true ∧ starveChanges s = { zeroize s with lifecycle := .error })
    ∨ (s.cfg.fatalSticky = false ∧ starveChanges s = s) := by
  unfold starveChanges
  cases h : s.cfg.fatalSticky <;> simp

/-- What a bus access can do. -/
theorem busAccess_cases (a : BusAccess) (s : State) :
    (inSpace s.cfg a.addr = false ∧ busAccess a s = .fault .outsideBlock)
    ∨ (inSpace s.cfg a.addr = true ∧ wellShaped s.cfg a = false ∧ busAccess a s = .next (respond a.errorResponse s))
    ∨ (inSpace s.cfg a.addr = true ∧ wellShaped s.cfg a = true
        ∧ busAccess a s = performAccess (a.addr - s.cfg.drbgBase) a s) := by
  unfold busAccess
  cases h1 : inSpace s.cfg a.addr <;> cases h2 : wellShaped s.cfg a <;> simp

/-- What a write of CMD can do (R130). -/
theorem writeCmd_cases (w : Word) (s : State) :
    (decode w = .nop ∧ writeCmd w s = .next s)
    ∨ (decode w ≠ .nop ∧ s.phase = .busy ∧ writeCmd w s = .next (dropCommand s))
    ∨ (decode w ≠ .nop ∧ s.phase = .idle ∧ writeCmd w s = .next (accept w s)) := by
  unfold writeCmd
  by_cases h : decode w = .nop
  · simp [h, exec, execNop]
  · cases hp : s.phase <;> simp [h, State.busy, hp]

/-- What an access that the block performs can do: only answer; write CMD; or write another target. -/
theorem performAccess_cases (off : Nat) (a : BusAccess) (s : State) :
    (∃ r, performAccess off a s = .next (respond r s))
    ∨ (∃ addr width w, a = .write addr width w ∧ s.rst = false ∧ targetOf off = .reg .cmd
        ∧ performAccess off a s = writeCmd w (respond (.writeResp false) s))
    ∨ (∃ addr width w, a = .write addr width w ∧ s.rst = false ∧ targetOf off ≠ .reg .cmd
        ∧ performAccess off a s = .next (writeTarget w (respond (.writeResp false) s) (targetOf off))) := by
  cases a with
  | read x y => exact .inl ⟨_, rfl⟩
  | write x y w =>
    cases hr : s.rst with
    | true => exact .inl ⟨.writeResp false, by simp [performAccess, hr]⟩
    | false =>
      by_cases hc : targetOf off = .reg .cmd
      · exact .inr (.inl ⟨x, y, w, rfl, rfl, hc, by simp [performAccess, hr, hc]⟩)
      · exact .inr (.inr ⟨x, y, w, rfl, rfl, hc, by simp [performAccess, hr, hc]⟩)

/-- What a write of a target other than CMD can change while BUSY (R68). -/
theorem writeTarget_busy (w : Word) (s : State) (tg : Target) (h : s.phase = .busy) :
    writeTarget w s tg = { s with
      done := (writeTarget w s tg).done, cmdDropped := (writeTarget w s tg).cmdDropped
      doneIe := (writeTarget w s tg).doneIe } := by
  have hb : s.busy = true := by simp [State.busy, h]
  cases tg with
  | reg r => cases r <;> simp [writeTarget, writeReg, whenIdle, hb, writeStatus]
  | window b i => cases b <;> simp [writeTarget, whenIdle, hb]
  | reserved => rfl

/-- What a write of a target other than CMD can change. -/
theorem writeTarget_frame (w : Word) (s : State) (tg : Target) :
    writeTarget w s tg = { s with
      done := (writeTarget w s tg).done, cmdDropped := (writeTarget w s tg).cmdDropped
      doneIe := (writeTarget w s tg).doneIe, mechSel := (writeTarget w s tg).mechSel
      secStrength := (writeTarget w s tg).secStrength, reqLen := (writeTarget w s tg).reqLen
      aiLen := (writeTarget w s tg).aiLen, persLen := (writeTarget w s tg).persLen
      nonceLen := (writeTarget w s tg).nonceLen, mem := (writeTarget w s tg).mem } := by
  cases tg with
  | reg r => cases r <;> cases hb : s.busy <;> simp [writeTarget, writeReg, whenIdle, hb, writeStatus]
  | window b i => cases b <;> cases hb : s.busy <;> simp [writeTarget, whenIdle, hb, writeWindow]
  | reserved => rfl

/-- What a bus access can change while BUSY (R68, R130). -/
theorem busAccess_busy {a : BusAccess} {s t : State} (h : busAccess a s = .next t) (hp : s.phase = .busy) :
    t = { s with done := t.done, cmdDropped := t.cmdDropped, doneIe := t.doneIe, busResp := t.busResp } := by
  rcases busAccess_cases a s with ⟨_, h'⟩ | ⟨_, _, h'⟩ | ⟨_, _, h'⟩
  · rw [h'] at h; cases h
  · rw [h'] at h; cases h; rfl
  · rw [h'] at h
    rcases performAccess_cases (a.addr - s.cfg.drbgBase) a s with ⟨r, h1⟩ | ⟨_, _, w, _, _, _, h1⟩ | ⟨_, _, w, _, _, _, h1⟩
    · rw [h1] at h; cases h; rfl
    · rw [h1] at h
      rcases writeCmd_cases w (respond (.writeResp false) s) with ⟨_, h2⟩ | ⟨_, _, h2⟩ | ⟨_, h3, _⟩
      · rw [h2] at h; cases h; rfl
      · rw [h2] at h; cases h; rfl
      · simp [hp] at h3
    · rw [h1] at h; cases h
      have := writeTarget_busy w (respond (.writeResp false) s) (targetOf (a.addr - s.cfg.drbgBase)) (by simpa using hp)
      rw [this]; rfl

/-- What a bus access can change: never the lifecycle, the working state, the latched fields, the results or the port. -/
theorem busAccess_frame {a : BusAccess} {s t : State} (h : busAccess a s = .next t) :
    t = { s with
      phase := t.phase, cmdL := t.cmdL, done := t.done, cmdDropped := t.cmdDropped, doneIe := t.doneIe
      busResp := t.busResp, mechSel := t.mechSel, secStrength := t.secStrength, reqLen := t.reqLen, aiLen := t.aiLen
      persLen := t.persLen, nonceLen := t.nonceLen, mem := t.mem } := by
  rcases busAccess_cases a s with ⟨_, h'⟩ | ⟨_, _, h'⟩ | ⟨_, _, h'⟩
  · rw [h'] at h; cases h
  · rw [h'] at h; cases h; rfl
  · rw [h'] at h
    rcases performAccess_cases (a.addr - s.cfg.drbgBase) a s with ⟨r, h1⟩ | ⟨_, _, w, _, _, _, h1⟩ | ⟨_, _, w, _, _, _, h1⟩
    · rw [h1] at h; cases h; rfl
    · rw [h1] at h
      rcases writeCmd_cases w (respond (.writeResp false) s) with ⟨_, h2⟩ | ⟨_, _, h2⟩ | ⟨_, h3, h2⟩ <;>
      · rw [h2] at h; cases h; rfl
    · rw [h1] at h; cases h
      have := writeTarget_frame w (respond (.writeResp false) s) (targetOf (a.addr - s.cfg.drbgBase))
      rw [this]; rfl

/-! ## Every meaning -/

/-- `t` is a completion of a command run in `s`: `complete` over changes of the lifecycle state, the working state, RC, the
latched fields and the memory above the input windows. -/
def Completes (s t : State) : Prop :=
  ∃ code result u, t = complete code result u
    ∧ u = { s with
        lifecycle := u.lifecycle, ws := u.ws, rc := u.rc, ssL := u.ssL, mechL := u.mechL, tdesL := u.tdesL, mem := u.mem }
    ∧ ∀ a, a < 0x10000 → Memory.read u.mem a = Memory.read s.mem a

theorem completes_reject (code : ResultCode) (s : State) : Completes s (reject code s) :=
  ⟨code, rejectResult code, s, rfl, rfl, fun _ _ => rfl⟩

theorem completes_starve (s : State) : Completes s (starve s) := by
  refine ⟨.entropyStarvation, 0#32, starveChanges s, rfl, ?_⟩
  rcases starveChanges_cases s with ⟨_, h⟩ | ⟨_, h⟩ <;> rw [h]
  · refine ⟨rfl, fun a ha => ?_⟩
    simp only [zeroize, Memory.read_clearBytes, Buf.base]
    rw [if_neg (by omega)]
  · exact ⟨rfl, fun _ _ => rfl⟩

theorem completes_generateDone (w : WorkingState) (rc : BitVec 64) (ai : Option ByteString) (s : State) :
    Completes s (generateDone w rc ai s) :=
  ⟨_, _, _, rfl, rfl, fun _ ha => Memory.read_writeBytes_outside _ _ _ _ (.inl (by simpa [Buf.base] using ha))⟩

/-- What a meaning can do: a NOP does nothing; any other command waits for its fetch or completes. -/
theorem exec_cases {i : Instr} {s t : State} (h : exec i s = .next t) :
    (i = .nop ∧ t = s) ∨ (i ≠ .nop ∧ s.entData = none ∧ t = awaitEntropy s) ∨ (i ≠ .nop ∧ Completes s t) := by
  cases i with
  | nop => cases h; exact .inl ⟨rfl, rfl⟩
  | instantiate =>
    change execInstantiate s = _ at h
    rcases execInstantiate_cases s with ⟨c, _, h'⟩ | ⟨m, _, ⟨h1, h'⟩ | ⟨e, _, _, h'⟩ | ⟨e, _, _, h'⟩⟩ <;> rw [h'] at h <;>
      cases h
    · exact .inr (.inr ⟨by simp, completes_reject _ _⟩)
    · exact .inr (.inl ⟨by simp, h1, rfl⟩)
    · exact .inr (.inr ⟨by simp, _, _, _, rfl, rfl, fun _ _ => rfl⟩)
    · exact .inr (.inr ⟨by simp, completes_starve _⟩)
  | reseed aip =>
    change execReseed aip s = _ at h
    rcases execReseed_cases aip s with ⟨c, _, h'⟩ | ⟨_, ⟨h1, h'⟩ | ⟨e, _, _, h'⟩ | ⟨e, _, _, h'⟩⟩ <;> rw [h'] at h <;> cases h
    · exact .inr (.inr ⟨by simp, completes_reject _ _⟩)
    · exact .inr (.inl ⟨by simp, h1, rfl⟩)
    · exact .inr (.inr ⟨by simp, _, _, _, rfl, rfl, fun _ _ => rfl⟩)
    · exact .inr (.inr ⟨by simp, completes_starve _⟩)
  | generate pr aip =>
    change execGenerate pr aip s = _ at h
    rcases execGenerate_cases pr aip s with ⟨c, _, h'⟩ | ⟨_, ⟨_, h'⟩ | ⟨_, h1, h'⟩ | ⟨e, _, _, _, h'⟩ | ⟨e, _, _, _, h'⟩⟩ <;>
      rw [h'] at h <;> cases h
    · exact .inr (.inr ⟨by simp, completes_reject _ _⟩)
    · exact .inr (.inr ⟨by simp, completes_generateDone _ _ _ _⟩)
    · exact .inr (.inl ⟨by simp, h1, rfl⟩)
    · exact .inr (.inr ⟨by simp, completes_generateDone _ _ _ _⟩)
    · exact .inr (.inr ⟨by simp, completes_starve _⟩)
  | uninstantiate =>
    cases h
    refine .inr (.inr ⟨by simp, _, _, _, rfl, rfl, fun a ha => ?_⟩)
    simp only [zeroize, Memory.read_clearBytes, Buf.base]
    rw [if_neg (by omega)]
  | _ => cases h; exact .inr (.inr ⟨by simp, completes_reject _ _⟩)

/-! ## The sequencer -/

/-- What the entropy source's answer can do. -/
theorem entropyAnswer_cases (e : ByteString) (s : State) :
    (s.cfg.entMaxBytes < e.length ∧ entropyAnswer e s = .refused .entropyOverrun)
    ∨ (e.length ≤ s.cfg.entMaxBytes ∧ s.entReq = true ∧ s.rst = false
        ∧ entropyAnswer e s = .next { s with entReq := false, entData := some e })
    ∨ (e.length ≤ s.cfg.entMaxBytes ∧ (s.entReq = false ∨ s.rst = true) ∧ entropyAnswer e s = .next s) := by
  unfold entropyAnswer
  by_cases h : s.cfg.entMaxBytes < e.length
  · simp [h]
  · rw [if_neg h]
    cases h1 : s.entReq <;> cases h2 : s.rst <;> simp <;> omega

/-- What the controller's turn can do. -/
theorem controllerTurn_cases (s : State) :
    ((s.rst = true ∨ s.phase = .idle) ∧ controllerTurn s = .next s)
    ∨ (s.rst = false ∧ s.phase = .busy ∧ controllerTurn s = exec s.cmdL.instr s) := by
  unfold controllerTurn
  cases h1 : s.rst <;> cases h2 : s.phase <;> simp

/-- What a step can do: if it answers a next state, it was one event, or the controller's turn with no event pending. -/
theorem step_cases {s t : State} (h : step s = .next t) :
    s.cfg.legal = true ∧
      ((s.events = [] ∧ controllerTurn s = .next t)
      ∨ ∃ ev rest, s.events = ev :: rest ∧ handleEvent ev { s with events := rest } = .next t) := by
  unfold step at h
  split at h
  · rename_i hl
    refine ⟨hl, ?_⟩
    unfold runEvents at h
    cases he : s.events with
    | nil => rw [he] at h; exact .inl ⟨rfl, h⟩
    | cons ev rest => rw [he] at h; exact .inr ⟨ev, rest, rfl, h⟩
  · cases h

/-- The latched command of an accepted word is the word's decoding (R91, R97). -/
@[simp] theorem accept_instr (w : Word) (s : State) : (accept w s).cmdL.instr = decode w := rfl

end Sys2Proof.Machine
end

