-- ==== Sys2Proof/Tests/Slice0.lean ====
section
/-! SUPPORT. Tests: the well-formedness smoke, decoding of words written out from 30_encoding.md, the derived vectors of
95_test_vectors.md, one small step per command, and a witness for every obligation that has hypotheses. -/

open Sys2Proof Sys2Proof.Machine

namespace Sys2Proof.Tests

/-! ## States and views for the tests -/

/-- READY, HASH, SS_L = 128. -/
def readyHash : State :=
  { State.reset with lifecycle := .ready, ws := ⟨zeros 55, zeros 55, [], []⟩, rc := 1#64, ssL := 128#16 }

/-- ERROR. -/
def errorState : State := { State.reset with lifecycle := .error }

/-- UNINST with SEC_STRENGTH = 128. -/
def uninst128 : State := { State.reset with secStrength := 128#16 }

/-- The triple-DES configuration of 95_test_vectors.md. -/
def tdeaConfig : Config := { Config.initial with klen := 21, blen := 8, cIsTdea := true, cMaxStrength := 112 }

/-- READY, CTR, triple-DES. -/
def readyTdea : State :=
  { State.reset with
    cfg := tdeaConfig, lifecycle := .ready, ws := ⟨zeros 8, [], [], zeros 21⟩, rc := 1#64, mechL := .ctr, tdesL := true }

/-- `s` with a command accepted. -/
def busyWith (w : Word) (s : State) : State := accept w s

/-- `s` with this much entropy delivered. -/
def fetched (n : Nat) (s : State) : State := { s with entReq := false, entData := some (zeros n) }

/-- What a completion shows: ERR, STATE, RESULT, RC, BUSY. -/
structure View where
  err : ResultCode
  lifecycle : Lifecycle
  result : Word
  rc : BitVec 64
  busy : Bool
  deriving DecidableEq, Repr

/-- The view of a next state. -/
def view : Host.Outcome State Fault Refusal → Option View
  | .next t => some ⟨t.err, t.lifecycle, t.result, t.rc, t.busy⟩
  | .fault _ => none
  | .refused _ => none

/-- A field of a next state. -/
def after {α : Type} (f : State → α) : Host.Outcome State Fault Refusal → Option α
  | .next t => some (f t)
  | .fault _ => none
  | .refused _ => none

/-! ## Well-formedness: each check refuses an ill-formed configuration (R6, R7) -/

theorem test_wf_initial : Config.initial.legal = true := by decide
theorem test_wf_tdea : tdeaConfig.legal = true := by decide
theorem test_wf_seedlen : ({ Config.initial with seedlen := 441 } : Config).seedlenOK = false
    ∧ ({ Config.initial with seedlen := 0 } : Config).legal = false := by decide
theorem test_wf_hash : ({ Config.initial with hlen := 1, seedlen := 2048 } : Config).hashOK = false
    ∧ ({ Config.initial with hlen := 0 } : Config).legal = false := by decide
theorem test_wf_mac : ({ Config.initial with mlen := 0 } : Config).macOK = false
    ∧ ({ Config.initial with mlen := 0 } : Config).legal = false := by decide
theorem test_wf_cipher : ({ Config.initial with blen := 8 } : Config).cipherOK = false
    ∧ ({ tdeaConfig with klen := 24 } : Config).cipherOK = false
    ∧ ({ Config.initial with klen := 33 } : Config).legal = false := by decide
theorem test_wf_buffers : ({ Config.initial with maxStrBytes := 1025 } : Config).buffersOK = false
    ∧ ({ Config.initial with maxStrBytes := 1025 } : Config).legal = false := by decide
/-- R13, at both sides of 32 bits: no legal length has more. -/
theorem test_wf_lengths : ({ Config.initial with seedlen := 0x100000000, hlen := 0x10000000 } : Config).seedlenOK = false
    ∧ ({ Config.initial with seedlen := 0xFFFFFFF8, hlen := 0x10000000 } : Config).legal = true
    ∧ ({ Config.initial with hlen := 0x100000000 } : Config).hashOK = false
    ∧ ({ Config.initial with mlen := 0x100000000 } : Config).macOK = false
    ∧ ({ Config.initial with entMaxBytes := 0x100000000 } : Config).buffersOK = false
    ∧ ({ Config.initial with hlen := 0xFFFFFFFF, mlen := 0xFFFFFFFF, entMaxBytes := 0xFFFFFFFF } : Config).legal = true := by
  decide
theorem test_wf_step_refuses :
    step { State.reset with cfg := { Config.initial with seedlen := 441 } } = .refused .illegalConfig := by rfl

/-! ## Decoding: words written out from R90 and R92 (OPCODE in bits 3 to 0, PR bit 8, AIP bit 9) -/

theorem test_decode_nop : decode 0b00000000000000000000001100000000#32 = .nop := by decide
theorem test_decode_instantiate : decode 0b00000000000000000000001100000001#32 = .instantiate := by decide
theorem test_decode_reseed : decode 0b00000000000000000000000100000010#32 = .reseed false
    ∧ decode 0b00000000000000000000001000000010#32 = .reseed true := by decide
theorem test_decode_generate : decode 0b11111111111111111111110011110011#32 = .generate false false
    ∧ decode 0b00000000000000000000001000010011#32 = .generate false true
    ∧ decode 0b00000000000000000000000100000011#32 = .generate true false
    ∧ decode 0b00000000000000000000001100000011#32 = .generate true true := by decide
theorem test_decode_uninstantiate : decode 0b00000000000000000000000000000100#32 = .uninstantiate := by decide
theorem test_decode_reserved5 : decode 0b10000000000000000000000000000101#32 = .reserved5 := by decide
theorem test_decode_reserved6 : decode 0b00000000000000000000000000000110#32 = .reserved6 := by decide
theorem test_decode_reserved7 : decode 0b00000000000000000000000000000111#32 = .reserved7 := by decide
theorem test_decode_reserved8 : decode 0b00000000000000000000000000001000#32 = .reserved8 := by decide
theorem test_decode_reserved9 : decode 0b00000000000000000000000000001001#32 = .reserved9 := by decide
theorem test_decode_reserved10 : decode 0b00000000000000000000000000001010#32 = .reserved10 := by decide
theorem test_decode_reserved11 : decode 0b00000000000000000000000000001011#32 = .reserved11 := by decide
theorem test_decode_reserved12 : decode 0b00000000000000000000000000001100#32 = .reserved12 := by decide
theorem test_decode_reserved13 : decode 0b00000000000000000000000000001101#32 = .reserved13 := by decide
theorem test_decode_reserved14 : decode 0b00000000000000000000000000001110#32 = .reserved14 := by decide
theorem test_decode_reserved15 : decode 0b00000000000000000000000100001111#32 = .reserved15 := by decide

/-- Words of R100. -/
theorem test_encode : encode .instantiate = 0x001#32 ∧ encode (.reseed true) = 0x202#32
    ∧ encode (.generate true false) = 0x103#32 ∧ encode (.generate true true) = 0x303#32
    ∧ encode .uninstantiate = 0x004#32 := by decide

/-- A row of more than one word, or no word, is no command (R98). -/
theorem test_decode_rejects : decodeTableWord 33 1 = none ∧ decodeTableWord 8 1 = some .instantiate
    ∧ (match decodeCommand [] with | .ok _ => false | .error e => e == .notOneWord 0) = true := by decide

/-! ## Datapath (T-DP-1 to T-DP-10, T-CTR-8) -/

theorem test_dp1 : enc32 (2 ^ 32 + 5) = [0x00#8, 0x00#8, 0x00#8, 0x05#8] ∧ beInt [0x01#8, 0x00#8] = 256
    ∧ beBytes 0x1234 1 = [0x34#8] := by decide
theorem test_dp2 : beAdd [0xFF#8, 0xFF#8] [[0x00#8, 0x02#8]] = [0x00#8, 0x01#8]
    ∧ beAdd [0x12#8, 0x34#8] [[0xAB#8, 0xCD#8, 0xEF#8]] = [0xE0#8, 0x23#8] := by decide
theorem test_dp3 : inc (List.replicate 8 0xFF#8) = zeros 8 ∧ inc [0x00#8, 0xFF#8] = [0x01#8, 0x00#8] := by decide
theorem test_dp4 : leftBits [0xFF#8, 0xFF#8] 12 = [0x0F#8, 0xFF#8] ∧ leftBits [0xAB#8, 0xCD#8] 4 = [0x0A#8]
    ∧ leftBits [0xAB#8] 0 = [] ∧ leftBytes [0xAA#8, 0xBB#8, 0xCC#8] 2 = [0xAA#8, 0xBB#8] := by decide
theorem test_dp5 : tooLarge .hash false 65536 = false ∧ tooLarge .hmac false 65537 = true
    ∧ tooLarge .ctr false 0xFFFFFFFF = true ∧ tooLarge .ctr true 1024 = false ∧ tooLarge .ctr true 1025 = true := by decide
theorem test_dp7 : reseedDue .hash false 0x1000000000000#64 = false ∧ reseedDue .hash false 0x1000000000001#64 = true
    ∧ reseedDue .ctr true 0x100000000#64 = false ∧ reseedDue .ctr true 0x100000001#64 = true := by decide
theorem test_dp10 : entropyOK (zeros 14) 112#16 = true ∧ entropyOK (zeros 13) 112#16 = false
    ∧ entropyOK (zeros 14) 113#16 = false ∧ entropyOK [] 0#16 = true := by decide
theorem test_ctr8 : expandTdea ((List.range 21).map (BitVec.ofNat 8))
      = [0x01#8, 0x01#8, 0x40#8, 0x40#8, 0x31#8, 0x20#8, 0x15#8, 0x0D#8, 0x07#8, 0x85#8, 0x02#8, 0x20#8, 0xA1#8, 0x58#8,
        0x31#8, 0x1A#8, 0x0E#8, 0x07#8, 0xC4#8, 0x02#8, 0x10#8, 0x91#8, 0x4C#8, 0x29#8]
    ∧ expandTdea (List.replicate 21 0xFF#8) = List.replicate 24 0xFE#8 := by decide

/-- Toy primitives, to follow the mechanisms' framing by hand. -/
def toy : Prims := ⟨fun m => m, fun k m => k ++ m, fun _ x => x⟩

/-- R170: counter, bit count in four bytes, input; two rounds. -/
theorem test_hashDf_framing : hashDf toy { Config.initial with hlen := 6 } [0xAB#8] 96
    = [0x01#8, 0x00#8, 0x00#8, 0x00#8, 0x60#8, 0xAB#8, 0x02#8, 0x00#8, 0x00#8, 0x00#8, 0x60#8, 0xAB#8] := by decide

/-- R190 with a MAC that joins its arguments: K = [1], V = [2], seed material [3]. -/
theorem test_hmacUpdate_framing :
    hmacUpdate toy ([0x01#8], [0x02#8]) (some [0x03#8])
      = ([1#8, 2#8, 0#8, 3#8, 1#8, 2#8, 0#8, 3#8, 2#8, 1#8, 3#8],
        [1#8, 2#8, 0#8, 3#8, 1#8, 2#8, 0#8, 3#8, 2#8, 1#8, 3#8, 1#8, 2#8, 0#8, 3#8, 2#8]) := by decide

/-- T-CTR-4: the input of Block_Cipher_df for the empty string. -/
theorem test_dfInput_empty : dfInput Config.initial [] 32
    = [0#8, 0#8, 0#8, 0#8, 0#8, 0#8, 0#8, 0x20#8, 0x80#8, 0#8, 0#8, 0#8, 0#8, 0#8, 0#8, 0#8] := by decide

/-- R212 with the identity as cipher: the XOR of the initial value and the blocks. -/
theorem test_bcc_chain : bcc toy { Config.initial with blen := 2 } false [] [0x0F#8, 0x01#8] [0x10#8, 0x02#8, 0x20#8, 0x04#8]
    = [0x3F#8, 0x07#8] := by decide

/-! ## Commands (95_test_vectors.md section 2.6); each command is run by its meaning -/

/-- T-CMD-24: NOP. -/
theorem test_nop : exec .nop readyHash = .next readyHash := by rfl
/-- T-CMD-1: a sufficient fetch of 16 bytes for 128 bits. -/
theorem test_instantiate : view (exec .instantiate (fetched 16 uninst128)) = some ⟨.ok, .ready, 0#32, 1#64, false⟩ := by decide
/-- T-CMD-6: a fetch of 15 bytes. -/
theorem test_instantiate_starves :
    view (exec .instantiate (fetched 15 uninst128)) = some ⟨.entropyStarvation, .error, 0#32, 0#64, false⟩ := by decide
/-- T-CMD-12: RESEED past the ceiling. -/
theorem test_reseed : view (exec (.reseed false) (fetched 32 { readyHash with rc := 0x1000000000001#64 }))
    = some ⟨.ok, .ready, 0#32, 1#64, false⟩ := by decide
/-- T-CMD-14: FATAL_STICKY = 0. -/
theorem test_reseed_starves : view (exec (.reseed false)
      (fetched 15 { readyHash with cfg := { Config.initial with fatalSticky := false }, rc := 7#64 }))
    = some ⟨.entropyStarvation, .ready, 0#32, 7#64, false⟩ := by decide
/-- T-CMD-8: the largest request. -/
theorem test_generate : view (exec (.generate false false) { readyHash with reqLen := 65536#32, rc := 5#64 })
    = some ⟨.ok, .ready, 0x80000#32, 6#64, false⟩ := by decide
/-- T-CMD-11: past the ceiling, with PR: no fetch. -/
theorem test_generate_pr : view (exec (.generate true false) { readyHash with reqLen := 32#32, rc := 0x1000000000001#64 })
    = some ⟨.reseedRequired, .ready, 0xFFFFFFFF#32, 0x1000000000001#64, false⟩ := by decide
/-- T-CMD-17: the nonce length stays. -/
theorem test_uninstantiate : view (exec .uninstantiate readyHash) = some ⟨.ok, .uninst, 0#32, 0#64, false⟩
    ∧ after State.nonceLen (exec .uninstantiate { readyHash with nonceLen := 9#32 }) = some 9#32
    ∧ after State.ws (exec .uninstantiate readyHash) = some WorkingState.zero := by decide
/-- T-CMD-16: from ERROR. -/
theorem test_uninstantiate_error : view (exec .uninstantiate errorState) = some ⟨.ok, .uninst, 0#32, 0#64, false⟩ := by decide
/-- T-CMD-18, for every reserved opcode, in READY and in ERROR. -/
theorem test_reserved : ∀ i ∈ [Instr.reserved5, .reserved6, .reserved7, .reserved8, .reserved9, .reserved10, .reserved11,
      .reserved12, .reserved13, .reserved14, .reserved15],
    view (exec i readyHash) = some ⟨.illegalCommand, .ready, 0#32, 1#64, false⟩
    ∧ view (exec i errorState) = some ⟨.illegalCommand, .error, 0#32, 0#64, false⟩ := by decide
/-- T-PRI-4 to T-PRI-7. -/
theorem test_priority :
    after State.err (exec .instantiate { State.reset with cfg := tdeaConfig, mechSel := 2#2, secStrength := 512#16 })
      = some .cfgStrengthMech
    ∧ after State.err (exec .instantiate
        { State.reset with cfg := { tdeaConfig with entSizeBits := 64#32 }, mechSel := 2#2, secStrength := 128#16 })
      = some .cfgStrengthPrim
    ∧ after State.err (exec (.generate false true) { readyHash with aiLen := 300#32, reqLen := 65537#32 })
      = some .inputTooLong
    ∧ after State.err (exec (.generate false false) { readyHash with reqLen := 65537#32, rc := 0x1000000000001#64 })
      = some .requestTooLarge := by decide

/-! ## Bus and sequencing (95_test_vectors.md section 2.7, T-CMD-23) -/

/-- T-MEM-2: lanes and the personalization string "DRBG". -/
theorem test_mem2 : after (fun t => State.persString { t with persLen := 4#32 })
      (busAccess (.write 0x400 4 0x47425244#32) State.reset) = some [0x44#8, 0x52#8, 0x42#8, 0x47#8] := by decide
/-- T-MEM-4: a misaligned read. -/
theorem test_mem4 : after State.busResp (busAccess (.read 0x012 4) readyHash) = some (some (.readResp true 0#32))
    ∧ after State.busResp (busAccess (.read 0x010 2) readyHash) = some (some (.readResp true 0#32)) := by decide
/-- T-MEM-6: beyond the buffer. -/
theorem test_mem6 : after State.mem (busAccess (.write 0x500 4 0xFFFFFFFF#32) State.reset) = some []
    ∧ after State.mem (busAccess (.write 0x4FC 4 0x01000000#32) State.reset) = some [(0x4FF, 0x01#8)] := by decide
/-- T-MEM-10: W1C of DONE only. -/
theorem test_mem10 : after (fun t => (t.done, t.cmdDropped))
    (busAccess (.write 0x010 4 0x8#32) { readyHash with done := true, cmdDropped := true }) = some (false, true) := by decide
/-- T-MEM-13: the STATUS word and the informational registers of a triple-DES instantiation. -/
theorem test_mem13 : readReg readyTdea .blockSizeBits = 64#32 ∧ readReg readyTdea .seedlenBits = 232#32
    ∧ readReg readyTdea .maxReqBits = 0x2000#32 ∧ readReg readyTdea .reseedMaxHi = 1#32
    ∧ readReg readyTdea .status = 0xC1#32 := by decide
/-- R57 at the two sides of 32 bits: the number itself, then a free value (log 19). -/
theorem test_wide_block_size :
    readReg { readyHash with cfg := { Config.initial with hlen := 0x1FFFFFFF } } .blockSizeBits = 0xFFFFFFF8#32
    ∧ readReg { readyHash with cfg := { Config.initial with hlen := 0x20000000 } } .blockSizeBits
      = Config.wideBlockSizeBits { Config.initial with hlen := 0x20000000 } 0#2 := ⟨by decide, rfl⟩
/-- T-CMD-23: a command while BUSY is dropped; the running one stays. -/
theorem test_dropped : after (fun t => (t.cmdDropped, t.cmdL.instr)) (busAccess (.write 0x00C 4 3#32) (busyWith 4#32 readyHash))
    = some (true, .uninstantiate) := by decide
/-- The first command after reset: INSTANTIATE stays BUSY with the request asserted; a reserved opcode completes. -/
theorem test_fetchWord : view (step (State.reset.withFetchWord 32 1)) = some ⟨.ok, .uninst, 0#32, 0#64, true⟩
    ∧ after State.entReq (step (State.reset.withFetchWord 32 1)) = some true
    ∧ view (step (State.reset.withFetchWord 32 7)) = some ⟨.illegalCommand, .uninst, 0#32, 0#64, false⟩
    ∧ after State.done (step (State.reset.withFetchWord 32 0)) = some false := by decide

/-- The bytes of an answer are held in the order delivered (R60), and a register write is an event of the run (R16). -/
theorem test_step_events :
    after State.entData (step { busyWith 2#32 readyHash with entReq := true, events := [.entropy [1#8, 2#8, 3#8]] })
      = some (some [1#8, 2#8, 3#8])
    ∧ after State.reqLen (step { readyHash with events := [.access (.write 0x018 4 9#32)] }) = some 9#32 := by decide

/-! ## Witnesses: concrete states and operands that meet the hypotheses of each obligation, clause by clause -/

/-- A state with everything an INSTANTIATE of HASH needs, the fetch delivered. -/
def instantiable : State := fetched 16 { uninst128 with persLen := 256#32, nonceLen := 16#32 }

theorem witness_DecodeOfEncode : (Instr.generate true true).wf = true := by decide

theorem witness_DecoderFollowsTable :
    (0xFFFFFFF0#32).extractLsb' 0 4 = 0x0#4 ∧ (0x1#32).extractLsb' 0 4 = 0x1#4 ∧ (0x202#32).extractLsb' 0 4 = 0x2#4
    ∧ (0x303#32).extractLsb' 0 4 = 0x3#4 ∧ (0x4#32).extractLsb' 0 4 = 0x4#4 ∧ (0x5#32).extractLsb' 0 4 = 0x5#4
    ∧ (0x6#32).extractLsb' 0 4 = 0x6#4 ∧ (0x7#32).extractLsb' 0 4 = 0x7#4 ∧ (0x8#32).extractLsb' 0 4 = 0x8#4
    ∧ (0x9#32).extractLsb' 0 4 = 0x9#4 ∧ (0xA#32).extractLsb' 0 4 = 0xA#4 ∧ (0xB#32).extractLsb' 0 4 = 0xB#4
    ∧ (0xC#32).extractLsb' 0 4 = 0xC#4 ∧ (0xD#32).extractLsb' 0 4 = 0xD#4 ∧ (0xE#32).extractLsb' 0 4 = 0xE#4
    ∧ (0xFFFFFFFF#32).extractLsb' 0 4 = 0xF#4 := by decide

theorem witness_ResetFromAnyState :
    (busyWith 3#32 readyHash).cfg.legal = true ∧ (zeros 32).length ≤ (busyWith 3#32 readyHash).cfg.entMaxBytes := by decide

theorem witness_AccessesWhileResetHeld :
    let s : State := { State.reset with rst := true }
    s.rst = true ∧ inSpace s.cfg (BusAccess.read 0x00000 4).addr = true
    ∧ inSpace s.cfg (BusAccess.write 0x1FFFC 4 1#32).addr = true := by decide

theorem witness_IllegalConfigRefused :
    (441 % 8 ≠ 0 ∧ ({ Config.initial with seedlen := 441 } : Config).seedlen = 441)
    ∧ ({ Config.initial with seedlen := 0 } : Config).seedlen < 8
    ∧ 255 < ceilDiv ({ Config.initial with hlen := 1, seedlen := 2048 } : Config).seedlen (8 * 1)
    ∧ (({ tdeaConfig with klen := 24 } : Config).cIsTdea = true ∧ ¬(tdeaConfig.blen = 8 ∧ 24 = 21))
    ∧ (Config.initial.cIsTdea = false ∧ ({ Config.initial with blen := 8 } : Config).blen ≠ 16)
    ∧ 32 < ({ Config.initial with klen := 33 } : Config).klen
    ∧ ({ Config.initial with hlen := 0 } : Config).hlen = 0 ∧ ({ Config.initial with mlen := 0 } : Config).mlen = 0
    ∧ ({ Config.initial with klen := 0 } : Config).klen = 0
    ∧ 1024 < ({ Config.initial with maxStrBytes := 1025 } : Config).maxStrBytes
    ∧ 2 ^ 32 ≤ ({ Config.initial with seedlen := 0x100000000 } : Config).seedlen
    ∧ 2 ^ 32 ≤ ({ Config.initial with hlen := 0x100000000 } : Config).hlen
    ∧ 2 ^ 32 ≤ ({ Config.initial with mlen := 0x100000000 } : Config).mlen
    ∧ 2 ^ 32 ≤ ({ Config.initial with entMaxBytes := 0x100000000 } : Config).entMaxBytes := by decide

theorem witness_BusErrorHasNoEffect :
    inSpace readyHash.cfg (BusAccess.read 0x010 2).addr = true ∧ (BusAccess.read 0x010 2).width ≠ 4
    ∧ inSpace readyHash.cfg (BusAccess.write 0x1FFFE 4 0#32).addr = true
    ∧ ((BusAccess.write 0x1FFFE 4 0#32).addr - readyHash.cfg.drbgBase) % 4 ≠ 0 := by decide

/-- The first and the last offset of each reserved range, with 256-byte buffers. -/
theorem witness_ReservedOffsetsReadZeroIgnoreWrites :
    readyHash.rst = false ∧ readyHash.cfg.maxStrBytes = 256
    ∧ (∀ off ∈ [0x04C, 0x3FC], off % 4 = 0 ∧ 0x04C ≤ off ∧ off < 0x400)
    ∧ (∀ off ∈ [0x1000, 0xFFFC], off % 4 = 0 ∧ 0x1000 ≤ off ∧ off < 0x10000)
    ∧ (∀ off ∈ [0x500, 0x7FC], off % 4 = 0 ∧ 0x400 + 256 ≤ off ∧ off < 0x800)
    ∧ (∀ off ∈ [0x900, 0xBFC], off % 4 = 0 ∧ 0x800 + 256 ≤ off ∧ off < 0xC00)
    ∧ (∀ off ∈ [0xD00, 0xFFC], off % 4 = 0 ∧ 0xC00 + 256 ≤ off ∧ off < 0x1000) := by decide

theorem witness_RegisterReadsAnswer : readyHash.rst = false := by decide

theorem witness_InformationalRegisters :
    errorState.cfg.legal = true ∧ errorState.lifecycle ≠ .ready ∧ (readyHash.lifecycle = .ready ∧ readyHash.mechL = .hash)
    ∧ ({ readyHash with mechL := .hmac } : State).mechL = .hmac
    ∧ (({ readyHash with mechL := .ctr } : State).mechL = .ctr ∧ readyHash.tdesL = false)
    ∧ (readyTdea.lifecycle = .ready ∧ readyTdea.mechL = .ctr ∧ readyTdea.tdesL = true)
    ∧ 8 * ({ Config.initial with hlen := 0x1FFFFFFF } : Config).hlen < 2 ^ 32
    ∧ ({ Config.initial with seedlen := 0xFFFFFFF8 } : Config).seedlen < 2 ^ 32
    ∧ 8 * ({ Config.initial with mlen := 0x1FFFFFFF } : Config).mlen < 2 ^ 32
    ∧ 8 * readyHash.cfg.blen < 2 ^ 32 ∧ 8 * (readyHash.cfg.klen + readyHash.cfg.blen) < 2 ^ 32 := by decide

theorem witness_RegisterWritesWhileIdle : readyHash.rst = false ∧ readyHash.phase = .idle := by decide

/-- Also for CmdWriteAcceptance's BUSY case. -/
theorem witness_WritesWhileBusy :
    (busyWith 3#32 readyHash).rst = false ∧ (busyWith 3#32 readyHash).phase = .busy
    ∧ ∀ off ∈ [0x400, 0xFFC], 0x400 ≤ off ∧ off < 0x1000 ∧ off % 4 = 0 := by decide

theorem witness_ReadOnlyIgnoresWrites :
    readyHash.rst = false ∧ ∀ off ∈ [0x10000, 0x1FFFC], 0x10000 ≤ off ∧ off < 0x20000 ∧ off % 4 = 0 := by decide

/-- A buffer of six bytes: the word at byte 4 has two bytes in it (k = 0, 1) and two beyond it. -/
theorem witness_WindowWriteStoresLanes :
    let s : State := { readyHash with cfg := { Config.initial with maxStrBytes := 6 } }
    s.rst = false ∧ s.phase = .idle ∧ Buf.ai ≠ .out ∧ s.cfg.maxStrBytes ≤ 1024 ∧ 4 * 1 < s.cfg.maxStrBytes
    ∧ (1 < 4 ∧ 4 * 1 + 1 < s.cfg.maxStrBytes) ∧ ¬(4 * 1 + 2 < s.cfg.maxStrBytes)
    ∧ ¬(Buf.ai.base + 4 * 1 ≤ Buf.ai.base + 6 ∧ Buf.ai.base + 6 < Buf.ai.base + 4 * 1 + 4
      ∧ Buf.ai.base + 6 < Buf.ai.base + s.cfg.maxStrBytes) := by decide

theorem witness_WindowReadAnswersLanes :
    let s : State := { readyHash with cfg := { Config.initial with maxStrBytes := 6 } }
    s.rst = false ∧ s.cfg.maxStrBytes ≤ 1024 ∧ 4 * 1 < Buf.pers.size s.cfg ∧ 4 * 16383 < Buf.out.size s.cfg := by decide

theorem witness_OperandStrings :
    let s : State := { readyHash with persLen := 4#32, nonceLen := 1#32, aiLen := 256#32 }
    3 < s.persLen.toNat ∧ 0 < s.nonceLen.toNat ∧ 255 < s.aiLen.toNat := by decide

theorem witness_ReadsHaveNoSideEffect : inSpace readyHash.cfg 0x1FFFF = true ∧ inSpace readyHash.cfg 0 = true := by decide

theorem witness_HiddenStateHasNoAddress : ∃ t, busAccess (.write 0x010 4 8#32) readyHash = .next t := ⟨_, rfl⟩

theorem witness_CmdWriteAcceptance :
    readyHash.rst = false ∧ readyHash.phase ≠ .busy ∧ decode 0x300#32 = .nop ∧ decode 3#32 ≠ .nop := by decide

theorem witness_NopHasNoEffect : (0xFFFFFFF0#32).extractLsb' 0 4 = 0#4 ∧ (busyWith 3#32 readyHash).rst = false := by decide

theorem witness_StepRunsDecodedCommand :
    (let s : State := { busyWith 0x203#32 readyHash with events := [.controller] };
      s.cfg.legal = true ∧ s.rst = false ∧ s.phase = .busy
      ∧ decodeFields s.cmdL.opcode s.cmdL.pr s.cmdL.aip = .generate false true ∧ s.events = [.controller])
    ∧ (let s := busyWith 4#32 readyHash;
      s.cfg.legal = true ∧ s.phase = .busy ∧ decodeFields s.cmdL.opcode s.cmdL.pr s.cmdL.aip = .uninstantiate ∧ s.events = [])
    ∧ (let s : State := { readyHash with events := [cmdWrite readyHash.cfg 0x300#32] };
      s.cfg.legal = true ∧ s.rst = false ∧ decode 0x300#32 = .nop ∧ s.events = [cmdWrite s.cfg 0x300#32])
    ∧ (State.reset.cfg.legal = true ∧ decode 1#32 ≠ .nop ∧ State.reset.events = [])
    ∧ (let s : State := { readyHash with events := [.access (.write 0x018 4 9#32), .controller] };
      s.cfg.legal = true ∧ s.events = .access (.write 0x018 4 9#32) :: [.controller])
    ∧ (let s : State := { readyHash with events := [.controller, .reset true] };
      s.cfg.legal = true ∧ s.phase = .idle ∧ s.events = .controller :: [.reset true])
    ∧ (let s : State := { State.reset with rst := true }; s.rst = true ∧ s.events = []) := by decide

theorem witness_AcceptThenComplete :
    readyHash.cfg.legal = true ∧ readyHash.rst = false ∧ readyHash.phase = .idle ∧ decode 3#32 ≠ .nop := by decide

/-- A RESEED that waits for its fetch stays BUSY. -/
theorem witness_ArgumentStability :
    (busyWith 2#32 readyHash).phase = .busy
    ∧ ∃ t, step (busyWith 2#32 readyHash) = .next t ∧ t.phase = .busy ∧ t.entReq = true := ⟨rfl, _, rfl, rfl, rfl⟩

theorem witness_BusyAccessesCommuteWithCommand :
    (busyWith 4#32 readyHash).phase = .busy ∧ ∃ s' t, busAccess (.write 0x00C 4 3#32) (busyWith 4#32 readyHash) = .next s'
      ∧ s'.cmdDropped = true ∧ exec .uninstantiate (busyWith 4#32 readyHash) = .next t ∧ t.phase = .idle :=
  ⟨rfl, _, _, rfl, rfl, rfl, rfl⟩

theorem witness_DroppedFlagStays :
    ∃ t, ({ readyHash with cmdDropped := true, events := [.access (.write 0x010 4 0x1000#32)] } : State).cmdDropped = true
      ∧ step { readyHash with cmdDropped := true, events := [.access (.write 0x010 4 0x1000#32)] } = .next t
      ∧ t.cmdDropped = false := ⟨_, rfl, rfl, rfl⟩

/-- Also for LifecycleTransitions: a completion, a reset and another step. -/
theorem witness_ResultsChangeOnlyAtCompletion :
    (∃ t, step (busyWith 4#32 readyHash) = .next t ∧ t.phase = .idle)
    ∧ (∃ t, step { readyHash with events := [.reset true] } = .next t ∧ t.lifecycle = .uninst)
    ∧ ∃ t, step { readyHash with events := [.controller] } = .next t ∧ t.lifecycle = .ready :=
  ⟨⟨_, rfl, rfl⟩, ⟨_, rfl, rfl⟩, ⟨_, rfl, rfl⟩⟩

theorem witness_LifecycleTransitions :
    ∃ t, step (busyWith 1#32 instantiable) = .next t ∧ t.lifecycle = .ready ∧ t.err = .ok := ⟨_, rfl, rfl, rfl⟩

theorem witness_LegalCommandsByState :
    legalIn (.generate true false) errorState.lifecycle = false ∧ legalIn (.reseed true) readyHash.lifecycle = true
    ∧ view (exec (.reseed true) (fetched 16 readyHash)) = some ⟨.ok, .ready, 0#32, 1#64, false⟩
    ∧ 0x5#4 ≤ Instr.reserved5.opcode ∧ 0x5#4 ≤ Instr.reserved15.opcode := by decide

theorem witness_InstantiateSucceeds :
    instantiable.lifecycle = .uninst ∧ instantiable.mechSel = Mech.hash.code
    ∧ instantiable.persLen.toNat ≤ instantiable.cfg.maxStrBytes ∧ instantiable.nonceLen.toNat ≤ instantiable.cfg.maxStrBytes
    ∧ instantiable.secStrength.toNat ≤ instantiable.cfg.mechMaxStrength
    ∧ instantiable.secStrength.toNat ≤ primMax instantiable.cfg .hash
    ∧ instantiable.secStrength.toNat ≤ instantiable.cfg.entSizeBits.toNat
    ∧ instantiable.entData = some (zeros 16) ∧ instantiable.secStrength.toNat ≤ 8 * (zeros 16).length := by decide

theorem witness_InstantiateCheckOrder :
    errorState.lifecycle ≠ .uninst ∧ State.reset.lifecycle = .uninst ∧ ({ State.reset with mechSel := 3#2 } : State).mechSel = 3#2
    ∧ State.reset.mechSel = Mech.hash.code
    ∧ Config.initial.maxStrBytes < (257#32 : Word).toNat ∧ (256#32 : Word).toNat ≤ Config.initial.maxStrBytes
    ∧ Config.initial.mechMaxStrength < (257#16).toNat ∧ (128#16).toNat ≤ Config.initial.mechMaxStrength
    ∧ primMax tdeaConfig .ctr < (128#16).toNat ∧ (128#16).toNat ≤ tdeaConfig.mechMaxStrength
    ∧ (112#16).toNat ≤ primMax tdeaConfig .ctr
    ∧ ({ tdeaConfig with entSizeBits := 111#32 } : Config).entSizeBits.toNat < (112#16).toNat := by decide

theorem witness_ReseedSucceeds :
    (fetched 16 readyHash).lifecycle = .ready ∧ (fetched 16 readyHash).aiLen.toNat ≤ (fetched 16 readyHash).cfg.maxStrBytes
    ∧ (fetched 16 readyHash).entData = some (zeros 16) ∧ (fetched 16 readyHash).ssL.toNat ≤ 8 * (zeros 16).length := by decide

theorem witness_ReseedGenerateCheckOrder :
    State.reset.lifecycle ≠ .ready ∧ readyHash.lifecycle = .ready
    ∧ readyHash.cfg.maxStrBytes < (257#32 : Word).toNat ∧ (256#32 : Word).toNat ≤ readyHash.cfg.maxStrBytes
    ∧ Instr.generate true true ≠ .reseed true ∧ maxReqBits readyHash.mechL readyHash.tdesL < 8 * (65537#32 : Word).toNat
    ∧ 8 * (65536#32 : Word).toNat ≤ maxReqBits readyHash.mechL readyHash.tdesL
    ∧ reseedMax readyHash.mechL readyHash.tdesL < (0x1000000000001#64).toNat := by decide

/-- At the ceiling, with the largest request (T-CMD-10, T-CMD-8). -/
theorem witness_GenerateSucceeds :
    let s : State := { readyHash with reqLen := 65536#32, rc := 0x1000000000000#64, aiLen := 256#32 }
    s.cfg.legal = true ∧ s.lifecycle = .ready ∧ s.aiLen.toNat ≤ s.cfg.maxStrBytes
    ∧ 8 * s.reqLen.toNat ≤ maxReqBits s.mechL s.tdesL ∧ s.rc.toNat ≤ reseedMax s.mechL s.tdesL
    ∧ 65535 < s.reqLen.toNat := by decide

theorem witness_GeneratePredictionResistant :
    let s : State := fetched 16 { readyHash with reqLen := 32#32 }
    s.cfg.legal = true ∧ s.lifecycle = .ready ∧ s.aiLen.toNat ≤ s.cfg.maxStrBytes
    ∧ 8 * s.reqLen.toNat ≤ maxReqBits s.mechL s.tdesL ∧ s.rc.toNat ≤ reseedMax s.mechL s.tdesL
    ∧ s.entData = some (zeros 16) ∧ s.ssL.toNat ≤ 8 * (zeros 16).length ∧ 31 < s.reqLen.toNat := by decide

/-- One byte short, for each of the three commands, with FATAL_STICKY = 1 and with 0. -/
theorem witness_EntropyStarvation :
    (fetched 15 uninst128).entData = some (zeros 15) ∧ 8 * (zeros 15).length < uninst128.secStrength.toNat
    ∧ (match instantiateChecks (fetched 15 uninst128) with | .ok m => m == .hash | .error _ => false) = true
    ∧ 8 * (zeros 15).length < readyHash.ssL.toNat ∧ reseedChecks true (fetched 15 readyHash) = none
    ∧ generateChecks true (fetched 15 readyHash) = none ∧ readyHash.cfg.fatalSticky = true
    ∧ ({ Config.initial with fatalSticky := false } : Config).fatalSticky = false := by decide

theorem witness_RequestOnlyAfterChecks :
    readyHash.entReq = false ∧ ∃ t, exec (.generate true false) readyHash = .next t ∧ t.entReq = true := ⟨rfl, _, rfl, rfl⟩

theorem witness_AnsweredCommandCompletes :
    Instr.generate true true ≠ .nop ∧ (fetched 16 readyHash).entData = some (zeros 16) := by decide

theorem witness_HandshakeCompletes :
    let s : State := { busyWith 2#32 readyHash with entReq := true }
    s.cfg.legal = true ∧ s.rst = false ∧ s.phase = .busy ∧ s.cmdL.instr ≠ .nop ∧ s.entReq = true
    ∧ (zeros 32).length ≤ s.cfg.entMaxBytes
    ∧ (let u : State := { busyWith 2#32 readyHash with events := [.entropy (zeros 32)] };
      u.entReq = false ∧ u.events = [.entropy (zeros 32)])
    ∧ (let u : State := { State.reset with rst := true, events := [.entropy []] }; u.rst = true) := by decide

theorem witness_CeilingReachedExactly :
    readyHash.lifecycle = .ready ∧ readyHash.rc = 1#64
    ∧ 8 * readyHash.reqLen.toNat ≤ maxReqBits readyHash.mechL readyHash.tdesL
    ∧ 0x1000000000000 ≤ reseedMax readyHash.mechL readyHash.tdesL := by decide

theorem witness_BitTruncation :
    437 ≤ 8 * (zeros 55).length ∧ 440 ≤ 8 * (zeros 55).length ∧ 0 ≤ 8 * (zeros 0).length := by decide

theorem witness_MechanismsKeepShape :
    Config.initial.legal = true ∧ WorkingState.shaped Config.initial .hash ⟨zeros 55, zeros 55, [], []⟩
    ∧ WorkingState.shaped Config.initial .hmac ⟨zeros 32, [], zeros 32, []⟩
    ∧ WorkingState.shaped Config.initial .ctr ⟨zeros 16, [], [], zeros 16⟩ := by
  refine ⟨by decide, ?_, ?_, ?_⟩ <;> (unfold WorkingState.shaped; decide)

theorem witness_TdeaExpansionHasOddParity : (zeros 21).length = 21 ∧ 2 < 3 ∧ 7 < 8 := by decide

theorem witness_DerivationInputIsPadded : tdeaConfig.legal = true := by decide

/-- A GENERATE running in READY, with a byte in each kind of buffer. -/
def runningGenerate : State :=
  { busyWith 3#32 readyHash with mem := [(0x400, 1#8), (0x4FF, 2#8), (0x10000, 3#8), (0x1FFFF, 4#8)], reqLen := 65536#32 }

theorem witness_StepKeepsInvariant : runningGenerate.Inv ∧ ∃ t, step runningGenerate = .next t ∧ t.rc = 2#64 := by
  refine ⟨⟨by decide, by decide, ?_, fun h => absurd rfl h, fun _ => ?_, fun _ => by decide, fun _ => by decide,
    fun _ => by decide, fun h => ?_, fun _ => rfl, fun _ => by decide, fun _ h => ?_, by decide, fun h => ?_⟩, _, rfl, rfl⟩
  · intro x hx
    have : x = (0x400, 1#8) ∨ x = (0x4FF, 2#8) ∨ x = (0x10000, 3#8) ∨ x = (0x1FFFF, 4#8) := by
      simpa [runningGenerate] using hx
    rcases this with rfl | rfl | rfl | rfl
    · exact ⟨.pers, 0, by decide, rfl⟩
    · exact ⟨.pers, 255, by decide, rfl⟩
    · exact ⟨.out, 0, by decide, rfl⟩
    · exact ⟨.out, 65535, by decide, rfl⟩
  · exact ⟨by decide, by decide, rfl, rfl⟩
  · cases h
  · cases h
  · cases h

theorem witness_SafeRunNeverStops :
    ({ readyHash with events := [.access (.write 0x1FFFC 4 1#32), .entropy (zeros 32), .controller, .reset true] } :
      State).safe := by
  refine ⟨by decide, by decide⟩

end Sys2Proof.Tests
end

/-! PROOF. What an illegal configuration does to a step (00_scope.md R6, R7, R13). -/

namespace Sys2Proof.Machine

/-! ## What else a legal configuration gives (R6, R7) -/

theorem legal_seedlen_ge {c : Config} (h : c.legal = true) : 8 ≤ c.seedlen := by
  simp only [Config.legal, Config.seedlenOK, Bool.and_eq_true, decide_eq_true_eq] at h; omega

/-- The one-byte counter of Hash_df never wraps (R7). -/
theorem legal_hashDf_rounds {c : Config} (h : c.legal = true) : ceilDiv c.seedlen (8 * c.hlen) ≤ 255 := by
  simp only [Config.legal, Config.hashOK, Bool.and_eq_true, decide_eq_true_eq] at h; omega

/-- The cipher's part of R6 and R7: the key length's range, and the lengths each of the two variants has. -/
theorem cipherOK_iff (c : Config) :
    c.cipherOK = true ↔ (1 ≤ c.klen ∧ c.klen ≤ 32) ∧ (c.cIsTdea = true → c.blen = 8 ∧ c.klen = 21)
      ∧ (c.cIsTdea = false → c.blen = 16) := by
  cases ht : c.cIsTdea <;> simp [Config.cipherOK, ht]

theorem legal_cipherOK {c : Config} (h : c.legal = true) : c.cipherOK = true := by
  simp only [Config.legal, Bool.and_eq_true] at h
  obtain ⟨⟨_, hcipher⟩, _⟩ := h
  exact hcipher

/-! ## The step -/

theorem step_of_not_legal {s : State} (h : ¬ s.cfg.legal = true) : step s = .refused .illegalConfig :=
  if_neg h

/-- Settles O8: a legal configuration meets each condition, so one that breaks any of them is not legal, and the step
refuses it. -/
theorem illegalConfigRefused : Obligations.IllegalConfigRefused := by
  unfold Obligations.IllegalConfigRefused
  intro s hbroken
  refine step_of_not_legal fun hlegal => ?_
  obtain ⟨hseedlen, hhlen, hmlen, _, _, hmaxStr, hentMax⟩ := legal_lengths hlegal
  obtain ⟨⟨hklenPos, hklen⟩, htdea, hother⟩ := (cipherOK_iff s.cfg).mp (legal_cipherOK hlegal)
  rcases hbroken with h | h | h | ⟨ht, h⟩ | ⟨ht, h⟩ | h | h | h | h | h | h | h | h | h
  · exact h (legal_seedlen hlegal)
  · exact h.not_ge (legal_seedlen_ge hlegal)
  · exact h.not_ge (legal_hashDf_rounds hlegal)
  · exact h (htdea ht)
  · exact h (hother ht)
  · exact h.not_ge hklen
  · exact (legal_hlen_pos hlegal).ne' h
  · exact (legal_mlen_pos hlegal).ne' h
  · exact Nat.ne_of_gt hklenPos h
  · exact h.not_ge hmaxStr
  · exact h.not_gt hseedlen
  · exact h.not_gt hhlen
  · exact h.not_gt hmlen
  · exact h.not_gt hentMax

end Sys2Proof.Machine

/-! PROOF. The mechanism functions keep the working state's shape (10_state.md R20 to R23; 41_commands.md R141, R146, R151). -/

namespace Sys2Proof.Machine

/-! ## Rounds -/

/-- Enough rounds of `b` bytes for `n` bytes, cut to `n` bytes, are exactly `n` bytes. -/
theorem leftBytes_rounds_length {x : ByteString} {n b : Nat} (hb : 0 < b) (hx : x.length = ceilDiv n b * b) :
    (leftBytes x n).length = n := by
  rw [leftBytes_length, hx, Nat.min_eq_left (le_ceilDiv_mul n hb)]

/-! ## Hash_DRBG (42_hash_drbg.md) -/

/-- Hash_df returns SEEDLEN bits when asked for them (R170). -/
theorem hashDf_seedlen_length {c : Config} (h : c.legal = true) (x : ByteString) :
    (hashDf c.prims c x c.seedlen).length = c.seedlen / 8 := by
  refine leftBits_length_of_dvd _ _ (legal_seedlen h) ?_
  have hcover := le_ceilDiv_mul c.seedlen (b := 8 * c.hlen) (by have := legal_hlen_pos h; omega)
  rw [hashDfRounds_length]
  calc c.seedlen ≤ ceilDiv c.seedlen (8 * c.hlen) * (8 * c.hlen) := hcover
    _ = 8 * (ceilDiv c.seedlen (8 * c.hlen) * c.hlen) := by ring

theorem hashgen_length {c : Config} (h : c.legal = true) (V : ByteString) (n : Nat) :
    (hashgen c.prims c V n).length = n :=
  leftBytes_rounds_length (legal_hlen_pos h) (hashgenRounds_length c _ V)

@[simp] theorem hashAbsorb_length (p : Prims) (V : ByteString) (ai : Option ByteString) :
    (hashAbsorb p V ai).length = V.length := by
  cases ai <;> simp [hashAbsorb]

theorem hashSeeded_shaped {c : Config} (h : c.legal = true) {V : ByteString} (hV : V.length = c.seedlen / 8) :
    (hashSeeded c.prims c V).shaped c .hash :=
  ⟨hV, hashDf_seedlen_length h _, rfl, rfl⟩

theorem hashGenerate_shaped {c : Config} {ws : WorkingState} (hws : ws.shaped c .hash) (p : Prims) (rc n : Nat)
    (ai : Option ByteString) : (hashGenerate p c ws rc n ai).2.shaped c .hash := by
  obtain ⟨hV, hC, _, _⟩ := hws
  exact ⟨by simpa [hashGenerate] using hV, hC, rfl, rfl⟩

/-! ## HMAC_DRBG (43_hmac_drbg.md) -/

/-- Both strings of an Update come from the MAC (R190). -/
theorem hmacUpdate_length (c : Config) (kv : ByteString × ByteString) (sm : Option ByteString) :
    (hmacUpdate c.prims kv sm).1.length = c.mlen ∧ (hmacUpdate c.prims kv sm).2.length = c.mlen := by
  cases sm <;> simp [hmacUpdate, hmacPass]

theorem hmacState_update_shaped (c : Config) (kv : ByteString × ByteString) (sm : Option ByteString) :
    (hmacState (hmacUpdate c.prims kv sm)).shaped c .hmac := by
  obtain ⟨hK, hV⟩ := hmacUpdate_length c kv sm
  exact ⟨hK, hV, rfl, rfl⟩

theorem hmacGenerate_length {c : Config} (h : c.legal = true) (ws : WorkingState) (n : Nat) (ai : Option ByteString) :
    (hmacGenerate c.prims c ws n ai).1.length = n :=
  leftBytes_rounds_length (legal_mlen_pos h) (hmacOutput_length c _ _ _)

/-! ## CTR_DRBG (44_ctr_drbg.md) -/

/-- Block_Cipher_df returns the bytes it is asked for (R213). -/
theorem blockCipherDf_length {c : Config} (h : c.legal = true) (tdes : Bool) (x : ByteString) (n : Nat) :
    (blockCipherDf c.prims c tdes x (8 * n)).length = n := by
  have hbytes : 8 * n / 8 = n := by omega
  unfold blockCipherDf
  rw [hbytes]
  exact leftBytes_rounds_length (legal_blen_pos h) (dfStretch_length c _ _ _ _)

/-- A seed of SL bytes gives a key of KLEN and a value of BLEN bytes (R214). -/
theorem ctrState_update_shaped {c : Config} (h : c.legal = true) (tdes : Bool) {seed : ByteString} (hs : seed.length = c.sl)
    (kv : ByteString × ByteString) : (ctrState (ctrUpdate c.prims c tdes seed kv)).shaped c .ctr := by
  have hstream : (leftBytes (ctrStream c.prims tdes kv.1 (ceilDiv c.sl c.blen) kv.2).1 c.sl).length = c.sl :=
    leftBytes_rounds_length (legal_blen_pos h) (ctrStream_length c _ _ _ _)
  have hsl : c.sl = c.klen + c.blen := rfl
  refine ⟨?_, ?_, rfl, rfl⟩
  · simp only [ctrState, ctrUpdate, List.length_take, xorBytes_length, hstream, hs]
    omega
  · simp only [ctrState, ctrUpdate, List.length_drop, xorBytes_length, hstream, hs]
    omega

/-- The string of a generate's final update has SL bytes (R217, R218). -/
theorem ctrAbsorb_length {c : Config} (h : c.legal = true) (tdes : Bool) (kv : ByteString × ByteString)
    (ai : Option ByteString) : (ctrAbsorb c.prims c tdes kv ai).1.length = c.sl := by
  cases ai with
  | none => exact zeros_length _
  | some a => exact blockCipherDf_length h tdes a c.sl

theorem ctrGenerate_length {c : Config} (h : c.legal = true) (tdes : Bool) (ws : WorkingState) (n : Nat)
    (ai : Option ByteString) : (ctrGenerate c.prims c tdes ws n ai).1.length = n :=
  leftBytes_rounds_length (legal_blen_pos h) (ctrStream_length c _ _ _ _)

/-! ## The three mechanisms -/

theorem mechInstantiate_shaped {c : Config} (h : c.legal = true) (m : Mech) (e nonce pers : ByteString) :
    (mechInstantiate c m e nonce pers).shaped c m := by
  cases m with
  | hash => exact hashSeeded_shaped h (hashDf_seedlen_length h _)
  | hmac => exact hmacState_update_shaped c _ _
  | ctr => exact ctrState_update_shaped h _ (blockCipherDf_length h _ _ _) _

theorem mechReseed_shaped {c : Config} (h : c.legal = true) (m : Mech) (tdes : Bool) (ws : WorkingState)
    (e ai : ByteString) : (mechReseed c m tdes ws e ai).shaped c m := by
  cases m with
  | hash => exact hashSeeded_shaped h (hashDf_seedlen_length h _)
  | hmac => exact hmacState_update_shaped c _ _
  | ctr => exact ctrState_update_shaped h _ (blockCipherDf_length h _ _ _) _

theorem mechGenerate_shaped {c : Config} (h : c.legal = true) {m : Mech} {ws : WorkingState} (hws : ws.shaped c m)
    (tdes : Bool) (rc n : Nat) (ai : Option ByteString) : (mechGenerate c m tdes ws rc n ai).2.shaped c m := by
  cases m with
  | hash => exact hashGenerate_shaped hws _ rc n ai
  | hmac => exact hmacState_update_shaped c _ _
  | ctr => exact ctrState_update_shaped h _ (ctrAbsorb_length h _ _ _) _

theorem mechGenerate_length {c : Config} (h : c.legal = true) (m : Mech) (tdes : Bool) (ws : WorkingState) (rc n : Nat)
    (ai : Option ByteString) : (mechGenerate c m tdes ws rc n ai).1.length = n := by
  cases m with
  | hash => exact hashgen_length h _ n
  | hmac => exact hmacGenerate_length h ws n ai
  | ctr => exact ctrGenerate_length h tdes ws n ai

/-- Settles O52: every string of the new working state and the output is a cut or a sum of strings of known length. -/
theorem mechanismsKeepShape : Obligations.MechanismsKeepShape := by
  unfold Obligations.MechanismsKeepShape
  intro c m td ws e nonce pers a rc n ai hlegal hshaped
  exact ⟨mechInstantiate_shaped hlegal m e nonce pers, mechReseed_shaped hlegal m td ws e a,
    mechGenerate_shaped hlegal hshaped td rc n ai, mechGenerate_length hlegal m td ws rc n ai⟩

end Sys2Proof.Machine

/-! PROOF. What running a command does, said once, and what follows for the entropy request, the handshake and the lifecycle
(10_state.md R41, R43, R59, R60; 41_commands.md R131). -/

namespace Sys2Proof.Machine

/-! ## The rejections' codes (60_exceptions.md R255) -/

/-- A check before the fetch ends a command neither with OK nor with ENTROPY_STARVATION, and with WRONG_STATE only where R43's
table does not allow the command. -/
structure RejectCode (i : Instr) (l : Lifecycle) (code : ResultCode) : Prop where
  ne_ok : code ≠ .ok
  ne_starvation : code ≠ .entropyStarvation
  illegal_of_wrongState : code = .wrongState → legalIn i l = false

theorem rejectCode_wrongState {i : Instr} {l : Lifecycle} (h : legalIn i l = false) : RejectCode i l .wrongState :=
  ⟨by decide, by decide, fun _ => h⟩

/-- The other codes of R240. -/
theorem rejectCode_of_ne {i : Instr} {l : Lifecycle} {code : ResultCode} (hok : code ≠ .ok)
    (hs : code ≠ .entropyStarvation) (hw : code ≠ .wrongState) : RejectCode i l code :=
  ⟨hok, hs, fun h => absurd h hw⟩

theorem instantiateChecks_rejectCode {s : State} {code : ResultCode} (h : instantiateChecks s = .error code) :
    RejectCode .instantiate s.lifecycle code := by
  unfold instantiateChecks at h
  split at h
  · next hl =>
    cases h
    exact rejectCode_wrongState (by simpa [legalIn] using hl)
  · split at h
    · cases h
      exact rejectCode_of_ne (by decide) (by decide) (by decide)
    · (repeat' split at h) <;> cases h <;> exact rejectCode_of_ne (by decide) (by decide) (by decide)

theorem reseedChecks_rejectCode {aip : Bool} {s : State} {code : ResultCode} (h : reseedChecks aip s = some code) :
    RejectCode (.reseed aip) s.lifecycle code := by
  unfold reseedChecks at h
  split at h
  · next hl =>
    cases h
    exact rejectCode_wrongState (by simpa [legalIn, State.isReady] using hl)
  · split at h <;> cases h
    exact rejectCode_of_ne (by decide) (by decide) (by decide)

theorem generateChecks_rejectCode {pr aip : Bool} {s : State} {code : ResultCode} (h : generateChecks aip s = some code) :
    RejectCode (.generate pr aip) s.lifecycle code := by
  unfold generateChecks at h
  split at h
  · next hl =>
    cases h
    exact rejectCode_wrongState (by simpa [legalIn, State.isReady] using hl)
  · (repeat' split at h) <;> cases h <;> exact rejectCode_of_ne (by decide) (by decide) (by decide)

/-! ## The run of a command -/

/-- The command has passed its checks before the fetch and takes entropy (R60, R255). -/
def NeedsFetch (s : State) (i : Instr) : Prop :=
  (i = .instantiate ∧ ∃ m, instantiateChecks s = .ok m)
  ∨ (∃ aip, i = .reseed aip ∧ reseedChecks aip s = none)
  ∨ (∃ aip, i = .generate true aip ∧ generateChecks aip s = none)

/-- The commits of a command that completes with OK: the RESULT and the state before the status update. -/
inductive Commits (s : State) : Instr → Word → State → Prop
  /-- R140. -/
  | instantiate {m : Mech} (e : ByteString) (hc : instantiateChecks s = .ok m) :
      Commits s .instantiate 0#32 (instantiateCommit m e s)
  /-- R145. -/
  | reseed {aip : Bool} (e : ByteString) (hc : reseedChecks aip s = none) :
      Commits s (.reseed aip) 0#32 (reseedCommit aip e s)
  /-- R150, PR = 0. -/
  | generate {aip : Bool} (hc : generateChecks aip s = none) :
      Commits s (.generate false aip) (BitVec.ofNat 32 (8 * s.requestBytes))
        (generateCommit s.ws s.rc (s.additionalInput aip) s)
  /-- R150, R152, PR = 1. -/
  | generateReseeded {aip : Bool} (e : ByteString) (hc : generateChecks aip s = none) :
      Commits s (.generate true aip) (BitVec.ofNat 32 (8 * s.requestBytes))
        (generateCommit (mechReseed s.cfg s.mechL s.tdesL s.ws e (orEmpty (s.additionalInput aip))) 1#64 none s)
  /-- R160. -/
  | uninstantiate : Commits s .uninstantiate 0#32 { zeroize s with lifecycle := .uninst }

/-- What running the command `i` in `s` can do. -/
inductive Runs (s : State) : Instr → State → Prop
  /-- R132. -/
  | nop : Runs s .nop s
  /-- A check before the fetch fails, or the opcode is reserved. -/
  | rejects {i : Instr} {code : ResultCode} (hi : i ≠ .uninstantiate) (hc : RejectCode i s.lifecycle code) :
      Runs s i (reject code s)
  /-- The command asserts the entropy request, or goes on asserting it. -/
  | waits {i : Instr} (hf : NeedsFetch s i) (hd : s.entData = none) : Runs s i (awaitEntropy s)
  /-- The fetch is too short (R243). -/
  | starves {i : Instr} (hf : NeedsFetch s i) : Runs s i (starve s)
  /-- The command completes with OK (R241). -/
  | commits {i : Instr} {result : Word} {u : State} (hu : Commits s i result u) : Runs s i (complete .ok result u)

theorem runs_of_execInstantiate {s t : State} (h : execInstantiate s = .next t) : Runs s .instantiate t := by
  rcases execInstantiate_cases s with ⟨code, hc, hx⟩ | ⟨m, hc, ⟨hd, hx⟩ | ⟨e, _, _, hx⟩ | ⟨e, _, _, hx⟩⟩ <;>
    rw [hx] at h <;> cases h
  · exact .rejects (by simp) (instantiateChecks_rejectCode hc)
  · exact .waits (.inl ⟨rfl, m, hc⟩) hd
  · exact .commits (.instantiate e hc)
  · exact .starves (.inl ⟨rfl, m, hc⟩)

theorem runs_of_execReseed {aip : Bool} {s t : State} (h : execReseed aip s = .next t) : Runs s (.reseed aip) t := by
  rcases execReseed_cases aip s with ⟨code, hc, hx⟩ | ⟨hc, ⟨hd, hx⟩ | ⟨e, _, _, hx⟩ | ⟨e, _, _, hx⟩⟩ <;>
    rw [hx] at h <;> cases h
  · exact .rejects (by simp) (reseedChecks_rejectCode hc)
  · exact .waits (.inr (.inl ⟨aip, rfl, hc⟩)) hd
  · exact .commits (.reseed e hc)
  · exact .starves (.inr (.inl ⟨aip, rfl, hc⟩))

theorem runs_of_execGenerate {pr aip : Bool} {s t : State} (h : execGenerate pr aip s = .next t) :
    Runs s (.generate pr aip) t := by
  rcases execGenerate_cases pr aip s with
      ⟨code, hc, hx⟩ | ⟨hc, ⟨rfl, hx⟩ | ⟨rfl, hd, hx⟩ | ⟨e, rfl, _, _, hx⟩ | ⟨e, rfl, _, _, hx⟩⟩ <;>
    rw [hx] at h <;> cases h
  · exact .rejects (by simp) (generateChecks_rejectCode hc)
  · exact .commits (.generate hc)
  · exact .waits (.inr (.inr ⟨aip, rfl, hc⟩)) hd
  · exact .commits (.generateReseeded e hc)
  · exact .starves (.inr (.inr ⟨aip, rfl, hc⟩))

/-- Every meaning, by its command. -/
theorem runs_of_exec {i : Instr} {s t : State} (h : exec i s = .next t) : Runs s i t := by
  cases i with
  | nop => cases h; exact .nop
  | instantiate => exact runs_of_execInstantiate h
  | reseed aip => exact runs_of_execReseed h
  | generate pr aip => exact runs_of_execGenerate h
  | uninstantiate => cases h; exact .commits .uninstantiate
  | _ =>
    cases h
    exact .rejects (by simp) (rejectCode_of_ne (by decide) (by decide) (by decide))

/-- Every meaning answers a next state (R256). -/
theorem exec_next (i : Instr) (s : State) : ∃ t, exec i s = .next t := by
  cases i with
  | instantiate =>
    rcases execInstantiate_cases s with ⟨_, _, h⟩ | ⟨_, _, ⟨_, h⟩ | ⟨_, _, _, h⟩ | ⟨_, _, _, h⟩⟩ <;> exact ⟨_, h⟩
  | reseed aip =>
    rcases execReseed_cases aip s with ⟨_, _, h⟩ | ⟨_, ⟨_, h⟩ | ⟨_, _, _, h⟩ | ⟨_, _, _, h⟩⟩ <;> exact ⟨_, h⟩
  | generate pr aip =>
    rcases execGenerate_cases pr aip s with
      ⟨_, _, h⟩ | ⟨_, ⟨_, h⟩ | ⟨_, _, h⟩ | ⟨_, _, _, _, h⟩ | ⟨_, _, _, _, h⟩⟩ <;> exact ⟨_, h⟩
  | _ => exact ⟨_, rfl⟩

/-! ## The entropy request (10_state.md R60) -/

/-- A command that needs its fetch and holds no answer waits for it. -/
theorem exec_of_needsFetch {i : Instr} {s : State} (hf : NeedsFetch s i) (hd : s.entData = none) :
    exec i s = .next (awaitEntropy s) := by
  rcases hf with ⟨rfl, m, hc⟩ | ⟨aip, rfl, hc⟩ | ⟨aip, rfl, hc⟩
  · simp [exec, execInstantiate, hc, hd]
  · simp [exec, execReseed, hc, hd]
  · simp [exec, execGenerate, hc, hd]

@[simp] theorem starve_entReq (s : State) : (starve s).entReq = false := rfl

/-- Settles O41: of the runs of a command only the one that waits asserts the request. -/
theorem requestOnlyAfterChecks : Obligations.RequestOnlyAfterChecks := by
  unfold Obligations.RequestOnlyAfterChecks
  intro s t i hreq hexec
  have asserted : t.entReq = true → t = awaitEntropy s ∧ s.entData = none ∧ NeedsFetch s i := by
    intro ht
    cases runs_of_exec hexec with
    | waits hf hd => exact ⟨rfl, hd, hf⟩
    | nop => simp [hreq] at ht
    | rejects _ _ => simp at ht
    | starves _ => simp at ht
    | commits _ => simp at ht
  refine ⟨⟨fun ht => (asserted ht).2, fun ⟨hd, hf⟩ => ?_⟩, fun ht => (asserted ht).1⟩
  have hwait := hexec.symm.trans (exec_of_needsFetch hf hd)
  cases hwait
  rfl

/-! ## Completions (41_commands.md R131) -/

/-- Once its fetch is answered a command that is no NOP completes (R279). -/
theorem exec_completes {i : Instr} {s : State} {e : ByteString} (hi : i ≠ .nop) (hd : s.entData = some e) :
    ∃ t, exec i s = .next t ∧ Completes s t := by
  obtain ⟨t, ht⟩ := exec_next i s
  rcases exec_cases ht with ⟨hnop, _⟩ | ⟨_, hnone, _⟩ | ⟨_, hc⟩
  · exact absurd hnop hi
  · rw [hd] at hnone; cases hnone
  · exact ⟨t, ht, hc⟩

/-- Settles O42: the completion of a command changes no host-written register and no input window. -/
theorem answeredCommandCompletes : Obligations.AnsweredCommandCompletes := by
  unfold Obligations.AnsweredCommandCompletes
  refine ⟨fun s => by simp [State.irq], fun i s e hi hd => ?_⟩
  obtain ⟨t, ht, code, result, u, rfl, hu, hmem⟩ := exec_completes hi hd
  refine ⟨_, ht, rfl, rfl, ?_⟩
  rw [hu]
  exact ⟨by simp [State.irq], rfl, rfl, rfl, rfl, rfl, rfl, rfl, rfl, hmem⟩

/-! ## The handshake (10_state.md R60) -/

/-- The source's answer to an asserted request, as a step of the machine. -/
theorem step_entropy_taken {s : State} {e : ByteString} {rest : List Event} (hl : s.cfg.legal = true)
    (hr : s.rst = false) (hq : s.entReq = true) (he : e.length ≤ s.cfg.entMaxBytes) :
    step { s with events := .entropy e :: rest } = .next { s with events := rest, entReq := false, entData := some e } := by
  simp [step, runEvents, handleEvent, entropyAnswer, hl, hr, hq, he]

/-- An answer to no request, or one held in reset, as a step of the machine (R271; log 7). -/
theorem step_entropy_ignored {s : State} {e : ByteString} {rest : List Event} (hl : s.cfg.legal = true)
    (hq : s.entReq = false ∨ s.rst = true) (he : e.length ≤ s.cfg.entMaxBytes) (hev : s.events = .entropy e :: rest) :
    step s = .next { s with events := rest } := by
  rcases hq with hq | hr
  · simp [step, runEvents, handleEvent, entropyAnswer, hl, hev, he, hq]
  · simp [step, runEvents, handleEvent, entropyAnswer, hl, hev, he, hr]

/-- The controller's turn of a BUSY block, as a step of the machine. -/
theorem step_controller_busy {s : State} {rest : List Event} (hl : s.cfg.legal = true) (hr : s.rst = false)
    (hp : s.phase = .busy) (hev : s.events = .controller :: rest) :
    step s = exec s.cmdL.instr { s with events := rest } := by
  simp [step, runEvents, handleEvent, controllerTurn, hl, hr, hp, hev]

/-- Two steps that both answer. -/
theorem run_two {s u t : State} (h1 : step s = .next u) (h2 : step u = .next t) :
    Host.Core.run Sys2Proof.core 2 s = .next t := by
  simp [Host.Core.run, Sys2Proof.core, h1, h2]

/-- Settles O43: the answer is a step that leaves the block BUSY with the string held; the controller's step runs the command
on it, and every command that holds an answer completes. -/
theorem handshakeCompletes : Obligations.HandshakeCompletes := by
  unfold Obligations.HandshakeCompletes
  refine ⟨fun s e rest hl hr hp hi hq he => ?_, fun s e rest hl hq he hev => step_entropy_ignored hl hq he hev⟩
  obtain ⟨t, ht, code, result, u, rfl, hu, _⟩ :=
    exec_completes (s := { s with events := rest, entReq := false, entData := some e }) hi rfl
  have hanswer := step_entropy_taken (rest := .controller :: rest) hl hr hq he
  have hturn := step_controller_busy (s := { s with events := .controller :: rest, entReq := false, entData := some e })
    hl hr hp rfl
  refine ⟨_, run_two hanswer (hturn.trans ht), ht, rfl, rfl, ?_⟩
  rw [hu]
  rfl

/-! ## The lifecycle (10_state.md R41, R43) -/

@[simp] theorem starve_err (s : State) : (starve s).err = .entropyStarvation := rfl

/-- R243. -/
theorem starve_lifecycle (s : State) :
    (starve s).lifecycle = if s.cfg.fatalSticky then .error else s.lifecycle := by
  rcases starveChanges_cases s with ⟨hf, hx⟩ | ⟨hf, hx⟩ <;> simp [starve, hx, hf]

/-- A command that takes entropy has passed the check of R43. -/
theorem needsFetch_lifecycle {s : State} {i : Instr} (h : NeedsFetch s i) :
    (i = .instantiate ∧ s.lifecycle = .uninst) ∨ (i ≠ .instantiate ∧ i ≠ .uninstantiate ∧ s.lifecycle = .ready) := by
  rcases h with ⟨rfl, m, hc⟩ | ⟨aip, rfl, hc⟩ | ⟨aip, rfl, hc⟩
  · exact .inl ⟨rfl, ((instantiateChecks_ok_iff s m).mp hc).1⟩
  · exact .inr ⟨by simp, by simp, ((reseedChecks_none_iff aip s).mp hc).1⟩
  · exact .inr ⟨by simp, by simp, ((generateChecks_none_iff aip s).mp hc).1⟩

/-- R41's table for a rejection. -/
theorem lifecycleAfter_reject (fatalSticky : Bool) {l : Lifecycle} {i : Instr} {code : ResultCode} (hi : i ≠ .uninstantiate)
    (hc : RejectCode i l code) : lifecycleAfter fatalSticky l i code = l := by
  obtain ⟨hok, hstarve, _⟩ := hc
  cases l <;> simp [lifecycleAfter, hi, hok, hstarve]

/-- R41's table for a commit. -/
theorem commits_lifecycle {s u : State} {i : Instr} {result : Word} (h : Commits s i result u) :
    u.lifecycle = lifecycleAfter s.cfg.fatalSticky s.lifecycle i .ok := by
  cases h with
  | @instantiate m _ hc => simp [lifecycleAfter, ((instantiateChecks_ok_iff s m).mp hc).1]
  | @reseed aip _ hc => simp [lifecycleAfter, ((reseedChecks_none_iff aip s).mp hc).1]
  | @generate aip hc => simp [lifecycleAfter, ((generateChecks_none_iff aip s).mp hc).1]
  | @generateReseeded aip _ hc => simp [lifecycleAfter, ((generateChecks_none_iff aip s).mp hc).1]
  | uninstantiate => simp [lifecycleAfter]

/-- R41's table for a short fetch. -/
theorem lifecycleAfter_starve {s : State} {i : Instr} (h : NeedsFetch s i) :
    (starve s).lifecycle = lifecycleAfter s.cfg.fatalSticky s.lifecycle i .entropyStarvation := by
  rw [starve_lifecycle]
  rcases needsFetch_lifecycle h with ⟨rfl, hl⟩ | ⟨_, hi, hl⟩
  · cases hf : s.cfg.fatalSticky <;> simp [lifecycleAfter, hl]
  · cases hf : s.cfg.fatalSticky <;> simp [lifecycleAfter, hi, hl]

/-- A command either completes, with R41's new lifecycle state, or leaves PHASE and STATE. -/
theorem runs_lifecycle {s t : State} {i : Instr} (h : Runs s i t) :
    (t.phase = .idle ∧ t.lifecycle = lifecycleAfter s.cfg.fatalSticky s.lifecycle i t.err)
    ∨ (t.phase = s.phase ∧ t.lifecycle = s.lifecycle) := by
  cases h with
  | nop => exact .inr ⟨rfl, rfl⟩
  | waits _ _ => exact .inr ⟨rfl, rfl⟩
  | rejects hi hc => exact .inl ⟨rfl, (lifecycleAfter_reject _ hi hc).symm⟩
  | starves hf => exact .inl ⟨rfl, lifecycleAfter_starve hf⟩
  | commits hu => exact .inl ⟨rfl, (complete_lifecycle _ _ _).trans (commits_lifecycle hu)⟩

/-- A bus access never ends BUSY (R130). -/
theorem busAccess_phase_of_busy {a : BusAccess} {s t : State} (h : busAccess a s = .next t) (hp : s.phase = .busy) :
    t.phase = .busy := by
  rw [busAccess_busy h hp]
  exact hp

/-- The controller's turn: no completion, or R41's table. -/
theorem controllerTurn_lifecycle {s t : State} (h : controllerTurn s = .next t) :
    (s.phase = .busy ∧ t.phase = .idle
      ∧ t.lifecycle = lifecycleAfter s.cfg.fatalSticky s.lifecycle s.cmdL.instr t.err)
    ∨ (t.phase = s.phase ∧ t.lifecycle = s.lifecycle) := by
  rcases controllerTurn_cases s with ⟨_, hx⟩ | ⟨_, hp, hx⟩ <;> rw [hx] at h
  · cases h
    exact .inr ⟨rfl, rfl⟩
  · exact (runs_lifecycle (runs_of_exec h)).imp (fun ⟨hidle, hl⟩ => ⟨hp, hidle, hl⟩) id

/-- What the entropy source's answer leaves. -/
theorem entropyAnswer_frame {e : ByteString} {s t : State} (h : entropyAnswer e s = .next t) :
    t = { s with entReq := t.entReq, entData := t.entData } := by
  rcases entropyAnswer_cases e s with ⟨_, hx⟩ | ⟨_, _, _, hx⟩ | ⟨_, _, hx⟩ <;> rw [hx] at h <;> cases h <;> rfl

/-- A step that keeps PHASE is no completion. -/
theorem not_completion_of_phase_eq {s t : State} (h : t.phase = s.phase) : ¬(s.phase = .busy ∧ t.phase = .idle) := by
  rintro ⟨hs, ht⟩
  rw [h, hs] at ht
  cases ht

/-- Settles O30: a completion is a controller's turn; an access and an answer never change STATE, and a reset edge asserts
reset or keeps STATE. -/
theorem lifecycleTransitions : Obligations.LifecycleTransitions := by
  unfold Obligations.LifecycleTransitions
  intro s t hstep
  obtain ⟨_, ⟨hev, hturn⟩ | ⟨ev, rest, hev, hx⟩⟩ := step_cases hstep
  · rcases controllerTurn_lifecycle hturn with ⟨hp, hidle, hl⟩ | ⟨hp, hl⟩
    · exact .inl ⟨hp, hidle, by simp [hev], hl⟩
    · exact .inr (.inr ⟨not_completion_of_phase_eq hp, hl⟩)
  · cases ev with
    | access a =>
      refine .inr (.inr ⟨fun ⟨hp, hidle⟩ => ?_, by rw [busAccess_frame hx]⟩)
      rw [busAccess_phase_of_busy hx hp] at hidle
      cases hidle
    | entropy e =>
      rw [entropyAnswer_frame hx]
      exact .inr (.inr ⟨not_completion_of_phase_eq rfl, rfl⟩)
    | controller =>
      rcases controllerTurn_lifecycle hx with ⟨hp, hidle, hl⟩ | ⟨hp, hl⟩
      · exact .inl ⟨hp, hidle, by simp [hev], hl⟩
      · exact .inr (.inr ⟨not_completion_of_phase_eq hp, hl⟩)
    | reset asserted =>
      cases hx
      cases asserted with
      | true => exact .inr (.inl ⟨by simp [hev], rfl⟩)
      | false => exact .inr (.inr ⟨not_completion_of_phase_eq rfl, rfl⟩)

/-- R43: a command that is not legal in STATE is rejected before every other check (R255). -/
theorem exec_of_not_legalIn {i : Instr} {s : State} (h : legalIn i s.lifecycle = false) :
    exec i s = .next (reject .wrongState s) := by
  cases i with
  | instantiate =>
    have hl : s.lifecycle ≠ .uninst := by simpa [legalIn] using h
    simp [exec, execInstantiate, instantiateChecks, hl]
  | reseed aip =>
    have hl : s.lifecycle ≠ .ready := by simpa [legalIn] using h
    simp [exec, execReseed, reseedChecks, State.isReady, hl]
  | generate pr aip =>
    have hl : s.lifecycle ≠ .ready := by simpa [legalIn] using h
    simp [exec, execGenerate, generateChecks, State.isReady, hl]
  | _ => simp [legalIn] at h

/-- Settles O31: legality is the first check, and no later outcome has the code WRONG_STATE. -/
theorem legalCommandsByState : Obligations.LegalCommandsByState := by
  unfold Obligations.LegalCommandsByState
  refine fun i s => ⟨fun h => ⟨_, exec_of_not_legalIn h, rfl⟩, fun hlegal t ht => ?_, fun hop => ?_⟩
  · cases runs_of_exec ht with
    | nop => exact .inl rfl
    | waits _ _ => exact .inl rfl
    | rejects _ hc => exact .inr fun hw => by simp [hc.illegal_of_wrongState hw] at hlegal
    | starves _ => exact .inr (by simp)
    | commits _ => exact .inr (by simp)
  · cases i with
    | nop | instantiate | reseed | generate | uninstantiate => simp [Instr.opcode] at hop
    | _ => exact ⟨_, rfl, rfl⟩

end Sys2Proof.Machine

/-! PROOF. What the host reads and writes: the registers' values, the STATUS word, the writes of the registers and the windows
(10_state.md R45 to R59, R66, R68; 20_memory.md R74, R78). -/

namespace Sys2Proof.Machine

/-! ## The registers' offsets (R47) -/

theorem Reg.offset_lt (r : Reg) : r.offset < 0x20000 := by cases r <;> decide

theorem Reg.offset_aligned (r : Reg) : r.offset % 4 = 0 := by cases r <;> decide

/-- A read of a register at its offset. -/
theorem busAccess_readReg {s : State} (hr : s.rst = false) (r : Reg) :
    busAccess (.read (s.cfg.drbgBase + r.offset) 4) s = .next { s with busResp := some (.readResp false (readReg s r)) } := by
  rw [busAccess_read s r.offset_lt r.offset_aligned hr, targetOf_reg]
  rfl

/-- A write of a register other than CMD at its offset. -/
theorem busAccess_writeReg {s : State} (hr : s.rst = false) (v : Word) {r : Reg} (hc : r ≠ .cmd) :
    busAccess (.write (s.cfg.drbgBase + r.offset) 4 v) s = .next (writeReg v (respond (.writeResp false) s) r) := by
  rw [busAccess_write s v r.offset_lt r.offset_aligned hr (by simpa using hc), targetOf_reg]
  rfl

/-- Settles O11: the table of R47 is the list of all registers with their offsets. -/
theorem registerReadsAnswer : Obligations.RegisterReadsAnswer := by
  unfold Obligations.RegisterReadsAnswer
  refine ⟨fun s hr p hp => ?_, fun s => ⟨rfl, rfl, ?_, rfl, rfl, rfl, rfl, rfl, ?_, ?_, ?_⟩⟩
  · change p ∈ Reg.all.map fun r => (r.offset, r) at hp
    obtain ⟨r, _, rfl⟩ := List.mem_map.mp hp
    exact busAccess_readReg hr r
  · exact (BitVec.extractLsb'_append_extractLsb'_eq_extractLsb' (x := s.rc) (by rfl)).trans (by simp)
  · simp only [readReg, BitVec.toNat_setWidth]
    omega
  · simp only [readReg, BitVec.toNat_setWidth]
    omega
  · cases h : s.doneIe <;> simp [readReg, h]

/-! ## Informational registers (R57) -/

/-- The registers that read 0 outside READY. -/
def informationalRegs : List Reg := [.blockSizeBits, .seedlenBits, .maxReqBits, .reseedMaxLo, .reseedMaxHi, .strengthL]

theorem whenReady_of_ready {s : State} (h : s.lifecycle = .ready) (v : Word) : s.whenReady v = v := by
  simp [State.whenReady, State.isReady, h]

theorem whenReady_of_not_ready {s : State} (h : s.lifecycle ≠ .ready) (v : Word) : s.whenReady v = 0#32 := by
  simp [State.whenReady, State.isReady, h]

theorem readReg_informational_of_not_ready {s : State} (h : s.lifecycle ≠ .ready) {r : Reg} (hr : r ∈ informationalRegs) :
    readReg s r = 0#32 := by
  fin_cases hr <;> exact whenReady_of_not_ready h _

section Ready

variable {s : State} (h : s.lifecycle = .ready)
include h

/-- SEEDLEN_BITS, where the number fits. -/
theorem readReg_seedlenBits_toNat {n : Nat} (hn : s.seedlenBits = n) (hfit : n < 2 ^ 32) :
    (readReg s .seedlenBits).toNat = n := by
  simp only [readReg, whenReady_of_ready h, State.seedlenWord, hn, BitVec.toNat_ofNat, Nat.mod_eq_of_lt hfit]

/-- BLOCK_SIZE_BITS, where the number fits. -/
theorem readReg_blockSizeBits_toNat {n : Nat} (hn : s.blockSizeBits = n) (hfit : n < 2 ^ 32) :
    (readReg s .blockSizeBits).toNat = n := by
  subst hn
  simp only [readReg, whenReady_of_ready h, State.blockSizeWord]
  exact registerWord_toNat _ hfit

/-- The ceilings of every mechanism but triple-DES CTR (R121). -/
theorem readReg_ceilings_std (ht : tdeaCeilings s.mechL s.tdesL = false) :
    readReg s .maxReqBits = 0x00080000#32 ∧ readReg s .reseedMaxHi = 0x00010000#32 ∧ readReg s .reseedMaxLo = 0#32 := by
  simp [readReg, whenReady_of_ready h, State.maxRequest, State.reseedCeiling, maxReqBits, reseedMax, ht, maxReqBitsStd,
    reseedMaxStd]

/-- The ceilings of triple-DES CTR (R121). -/
theorem readReg_ceilings_tdea (ht : tdeaCeilings s.mechL s.tdesL = true) :
    readReg s .maxReqBits = 0x00002000#32 ∧ readReg s .reseedMaxHi = 0x00000001#32 ∧ readReg s .reseedMaxLo = 0#32 := by
  simp [readReg, whenReady_of_ready h, State.maxRequest, State.reseedCeiling, maxReqBits, reseedMax, ht, maxReqBitsTdea,
    reseedMaxTdea]

end Ready

/-- Settles O12: outside READY each register reads 0; in READY it reads a number that the mechanism gives and that fits. -/
theorem informationalRegisters : Obligations.InformationalRegisters := by
  unfold Obligations.InformationalRegisters
  refine fun s => ⟨fun hlegal => ?_, fun hn => ?_, fun h => ⟨?_, fun hm => ?_, fun hm => ?_, fun hm ht => ?_, fun hm ht => ?_⟩⟩
  · obtain ⟨hseed, _, _, hblen, hklen, _, _⟩ := legal_lengths hlegal
    omega
  · refine ⟨?_, ?_, ?_, ?_, ?_, ?_⟩ <;> exact readReg_informational_of_not_ready hn (by decide)
  · simp only [readReg, whenReady_of_ready h, BitVec.toNat_setWidth]
    omega
  · exact ⟨readReg_blockSizeBits_toNat h (by simp [State.blockSizeBits, hm]),
      readReg_seedlenBits_toNat h (by simp [State.seedlenBits, hm]),
      readReg_ceilings_std h (by simp [tdeaCeilings, hm])⟩
  · exact ⟨readReg_blockSizeBits_toNat h (by simp [State.blockSizeBits, hm]),
      BitVec.eq_of_toNat_eq (readReg_seedlenBits_toNat h (by simp [State.seedlenBits, hm]) (by decide)),
      readReg_ceilings_std h (by simp [tdeaCeilings, hm])⟩
  · exact ⟨readReg_blockSizeBits_toNat h (by simp [State.blockSizeBits, hm, ht]),
      readReg_seedlenBits_toNat h (by simp [State.seedlenBits, hm, ht]),
      readReg_ceilings_std h (by simp [tdeaCeilings, ht])⟩
  · exact ⟨BitVec.eq_of_toNat_eq (readReg_blockSizeBits_toNat h (by simp [State.blockSizeBits, hm, ht]) (by decide)),
      BitVec.eq_of_toNat_eq (readReg_seedlenBits_toNat h (by simp [State.seedlenBits, hm, ht]) (by decide)),
      readReg_ceilings_tdea h (by simp [tdeaCeilings, hm, ht])⟩

/-! ## Reset (R66) -/

/-- The empty memory, every other field by its literal. -/
theorem reset_atResetValues : State.reset.atResetValues := by
  simp [State.atResetValues, State.reset, WorkingState.zero, Memory.unlisted]

/-- Settles O5: the informational registers read 0 outside READY, the others by evaluation. -/
theorem resetStateValues : Obligations.ResetStateValues := by
  unfold Obligations.ResetStateValues
  refine ⟨reset_atResetValues, rfl, fun r => ?_⟩
  by_cases hr : r ∈ informationalRegs
  · rw [readReg_informational_of_not_ready (by decide) hr, if_neg]
    rintro rfl
    exact absurd hr (by decide)
  · cases r with
    | blockSizeBits | seedlenBits | maxReqBits | reseedMaxLo | reseedMaxHi | strengthL => exact absurd (by decide) hr
    | _ => rfl

/-! ## The STATUS word (R45) -/

theorem getLsbD_fieldAt_inside {n lo i : Nat} (x : BitVec n) (hlo : lo ≤ i) (hi : i < 32) (_hn : i < lo + n) :
    (fieldAt lo x).getLsbD i = x.getLsbD (i - lo) := by
  have h : ¬ i < lo := by omega
  simp [fieldAt, hi, h]

theorem getLsbD_fieldAt_outside {n lo i : Nat} (x : BitVec n) (h : i < lo ∨ lo + n ≤ i) :
    (fieldAt lo x).getLsbD i = false := by
  rcases h with h | h
  · simp [fieldAt, h]
  · simp [fieldAt, BitVec.getLsbD_of_ge x (i - lo) (by omega)]

/-- The table of R45: each bit of STATUS is one bit of one field. -/
theorem getLsbD_statusWord (s : State) (i : Nat) : s.statusWord.getLsbD i =
    if i < 2 then s.lifecycle.code.getLsbD i
    else if i < 3 then s.busy
    else if i < 4 then s.done
    else if i < 5 then s.reseedDueFlag
    else if i < 7 then s.mechL.code.getLsbD (i - 5)
    else if i < 8 then s.tdesL
    else if i < 12 then s.err.code.getLsbD (i - 8)
    else if i < 13 then s.cmdDropped
    else false := by
  simp only [State.statusWord, BitVec.getLsbD_or]
  split_ifs <;>
    simp (disch := omega) only [getLsbD_fieldAt_inside, getLsbD_fieldAt_outside, BitVec.getLsbD_ofBool,
      Nat.sub_eq_zero_of_le, Nat.sub_zero, Bool.or_false, Bool.false_or, decide_true, Bool.true_and]

/-- A field of STATUS read by its bits. -/
theorem statusWord_field {lo n : Nat} (s : State) (x : BitVec n) (h : ∀ i < n, s.statusWord.getLsbD (lo + i) = x.getLsbD i) :
    s.statusWord.extractLsb' lo n = x := by
  refine BitVec.eq_of_getLsbD_eq fun i hi => ?_
  simp only [BitVec.getLsbD_extractLsb', hi, decide_true, Bool.true_and, h i hi]

theorem statusWord_lifecycle (s : State) : s.statusWord.extractLsb' 0 2 = s.lifecycle.code :=
  statusWord_field s _ fun i hi => by simp (disch := omega) only [getLsbD_statusWord, if_pos, Nat.zero_add]

theorem statusWord_mechL (s : State) : s.statusWord.extractLsb' 5 2 = s.mechL.code :=
  statusWord_field s _ fun i hi => by
    simp (disch := omega) only [getLsbD_statusWord, if_pos, if_neg, Nat.add_sub_cancel_left]

theorem statusWord_err (s : State) : s.statusWord.extractLsb' 8 4 = s.err.code :=
  statusWord_field s _ fun i hi => by
    simp (disch := omega) only [getLsbD_statusWord, if_pos, if_neg, Nat.add_sub_cancel_left]

theorem statusWord_upper (s : State) : s.statusWord.extractLsb' 13 19 = 0#19 :=
  statusWord_field s _ fun i hi => by simp (disch := omega) only [getLsbD_statusWord, if_neg, BitVec.getLsbD_zero]

/-- The numbers of R40, R33 and R240 tell the values apart. -/
theorem Lifecycle.code_injective : Function.Injective Lifecycle.code := by
  intro a b
  cases a <;> cases b <;> decide

theorem Mech.code_injective : Function.Injective Mech.code := by
  intro a b
  cases a <;> cases b <;> decide

theorem ResultCode.code_injective : Function.Injective ResultCode.code := by
  intro a b
  cases a <;> cases b <;> decide

/-- Settles O13: each field of STATUS is its code, and the codes tell the values apart. -/
theorem statusWordLayout : Obligations.StatusWordLayout := by
  unfold Obligations.StatusWordLayout
  refine ⟨fun s => ⟨fun p hp => ?_, ?_, ?_, ?_, fun p hp => ?_, ?_, fun p hp => ?_, ?_, statusWord_upper s⟩, by decide,
    by decide⟩
  · have hcode : p.2 = p.1.code := by fin_cases hp <;> rfl
    rw [readReg, statusWord_lifecycle, hcode, Lifecycle.code_injective.eq_iff]
  · rw [readReg, getLsbD_statusWord]
    simp [State.busy]
  · exact getLsbD_statusWord s 3
  · rw [readReg, getLsbD_statusWord]
    simp [State.reseedDueFlag, State.isReady, State.counterPastCeiling, reseedDue]
  · have hcode : p.2 = p.1.code := by fin_cases hp <;> rfl
    rw [readReg, statusWord_mechL, hcode, Mech.code_injective.eq_iff]
  · exact getLsbD_statusWord s 7
  · have hcode : p.2 = p.1.code := by fin_cases hp <;> rfl
    rw [readReg, statusWord_err, hcode, ResultCode.code_injective.eq_iff]
  · exact getLsbD_statusWord s 12

/-! ## Writes (R47, R68) -/

theorem whenIdle_of_idle {s : State} (h : s.phase = .idle) (s' : State) : whenIdle s s' = s' := by
  simp [whenIdle, State.busy, h]

theorem whenIdle_of_busy {s : State} (h : s.phase = .busy) (s' : State) : whenIdle s s' = s := by
  simp [whenIdle, State.busy, h]

/-- A field that the write leaves alone is the same whether it is ignored or not. -/
theorem whenIdle_field {α : Type} (f : State → α) {s s' : State} (h : f s' = f s) : f (whenIdle s s') = f s := by
  unfold whenIdle
  split
  · rfl
  · exact h

/-- A STATUS write acts in every phase (R45, R68). -/
theorem busAccess_write_status {s : State} (hr : s.rst = false) (v : Word) :
    busAccess (.write (s.cfg.drbgBase + 0x010) 4 v) s
      = .next { s with done := s.done && !v.getLsbD 3, cmdDropped := s.cmdDropped && !v.getLsbD 12,
                       busResp := some (.writeResp false) } :=
  busAccess_writeReg hr v (r := .status) (by decide)

/-- An INT_EN write acts in every phase (R58, R68). -/
theorem busAccess_write_intEn {s : State} (hr : s.rst = false) (v : Word) :
    busAccess (.write (s.cfg.drbgBase + 0x048) 4 v) s
      = .next { s with doneIe := v.getLsbD 0, busResp := some (.writeResp false) } :=
  busAccess_writeReg hr v (r := .intEn) (by decide)

/-- Settles O14: the argument registers' writes are not held back while idle; STATUS and INT_EN act in every phase. -/
theorem registerWritesWhileIdle : Obligations.RegisterWritesWhileIdle := by
  unfold Obligations.RegisterWritesWhileIdle
  intro s v hr hp
  have stored (r : Reg) (hc : r ≠ .cmd) (s' : State)
      (hw : writeReg v (respond (.writeResp false) s) r = whenIdle (respond (.writeResp false) s) s') :
      busAccess (.write (s.cfg.drbgBase + r.offset) 4 v) s = .next s' := by
    rw [busAccess_writeReg hr v hc, hw, whenIdle_of_idle (by simpa using hp)]
  exact ⟨stored .config (by decide) _ rfl, stored .secStrength (by decide) _ rfl, stored .reqLen (by decide) _ rfl,
    stored .aiLen (by decide) _ rfl, stored .persLen (by decide) _ rfl, stored .nonceLen (by decide) _ rfl,
    busAccess_write_status hr v, busAccess_write_intEn hr v⟩

/-- The argument registers: a write of one is ignored while BUSY (R68). -/
def argumentRegs : List Reg := [.config, .secStrength, .reqLen, .aiLen, .persLen, .nonceLen]

/-- The RO registers of R47. -/
def readOnlyRegs : List Reg :=
  [.id, .result, .reseedCtrLo, .reseedCtrHi, .blockSizeBits, .seedlenBits, .maxReqBits, .reseedMaxLo, .reseedMaxHi, .strengthL]

theorem writeReg_readOnly {r : Reg} (hr : r ∈ readOnlyRegs) (v : Word) (s : State) : writeReg v s r = s := by
  fin_cases hr <;> rfl

theorem writeReg_argument_of_busy {r : Reg} (hr : r ∈ argumentRegs) (v : Word) {s : State} (hp : s.phase = .busy) :
    writeReg v s r = s := by
  fin_cases hr <;> exact whenIdle_of_busy hp _

/-- An offset of the input windows is in one of them (R47). -/
theorem inputWindow_of_offset {off : Nat} (h0 : 0x400 ≤ off) (h1 : off < 0x1000) :
    ∃ (b : Buf) (i : Nat), b ≠ .out ∧ i < 0x400 ∧ off = b.base + i := by
  rcases Nat.lt_or_ge off 0x800 with h | h
  · exact ⟨.pers, off - 0x400, by decide, by omega, by simp only [Buf.base]; omega⟩
  · rcases Nat.lt_or_ge off 0xC00 with h' | h'
    · exact ⟨.nonce, off - 0x800, by decide, by omega, by simp only [Buf.base]; omega⟩
    · exact ⟨.ai, off - 0xC00, by decide, by omega, by simp only [Buf.base]; omega⟩

/-- A write of an aligned window offset. -/
theorem busAccess_write_window {s : State} (hr : s.rst = false) (v : Word) {b : Buf} {i : Nat}
    (hi : i < if b = .out then 0x10000 else 0x400) (h4 : (b.base + i) % 4 = 0) :
    busAccess (.write (s.cfg.drbgBase + (b.base + i)) 4 v) s
      = .next (writeTarget v (respond (.writeResp false) s) (.window b i)) := by
  have hlt : b.base + i < 0x20000 := by cases b <;> simp [Buf.base] at hi ⊢ <;> omega
  rw [busAccess_write s v hlt h4 hr (by simp [targetOf_window b i hi]), targetOf_window b i hi]

/-- A write of an input window is an argument write (R68). -/
theorem writeTarget_inputWindow {b : Buf} (hb : b ≠ .out) (v : Word) (s : State) (i : Nat) :
    writeTarget v s (.window b i) = whenIdle s (writeWindow v b i s) := by
  cases b with
  | out => exact absurd rfl hb
  | _ => rfl

/-- Settles O15: argument and window writes are held back, and a CMD write is no acceptance. -/
theorem writesWhileBusy : Obligations.WritesWhileBusy := by
  unfold Obligations.WritesWhileBusy
  intro s v hr hp
  have hp' : (respond (.writeResp false) s).phase = .busy := hp
  refine ⟨fun off hoff => ?_, fun off h0 h1 h4 => ?_, busAccess_write_status hr v, busAccess_write_intEn hr v, ?_⟩
  · change off ∈ argumentRegs.map Reg.offset at hoff
    obtain ⟨r, hmem, rfl⟩ := List.mem_map.mp hoff
    rw [busAccess_writeReg hr v (by rintro rfl; exact absurd hmem (by decide)), writeReg_argument_of_busy hmem v hp']
    rfl
  · obtain ⟨b, i, hb, hi, rfl⟩ := inputWindow_of_offset h0 h1
    rw [busAccess_write_window hr v (by simpa [hb] using hi) h4, writeTarget_inputWindow hb, whenIdle_of_busy hp']
    rfl
  · rw [busAccess_cmd s v hr]
    rcases writeCmd_cases v (respond (.writeResp false) s) with ⟨hd, hx⟩ | ⟨hd, _, hx⟩ | ⟨_, hidle, _⟩
    · rw [hx, if_pos hd]
      rfl
    · rw [hx, if_neg hd]
      rfl
    · rw [hp'] at hidle
      cases hidle

/-- Settles O16: a read-only register, and an offset that the map sends to the OUT window, are written to no effect. -/
theorem readOnlyIgnoresWrites : Obligations.ReadOnlyIgnoresWrites := by
  unfold Obligations.ReadOnlyIgnoresWrites
  refine fun s v hr => ⟨fun off hoff => ?_, fun off h0 h1 h4 => ?_⟩
  · change off ∈ readOnlyRegs.map Reg.offset at hoff
    obtain ⟨r, hmem, rfl⟩ := List.mem_map.mp hoff
    rw [busAccess_writeReg hr v (by rintro rfl; exact absurd hmem (by decide)), writeReg_readOnly hmem]
    rfl
  · obtain ⟨i, rfl⟩ : ∃ i, off = Buf.base .out + i := Nat.exists_eq_add_of_le h0
    exact busAccess_write_window hr v (by simp only [Buf.base] at h1 ⊢; simp; omega) h4

/-! ## The hidden state (R53) -/

/-- Another working state and other fetched entropy in their place. -/
def State.withHidden (s : State) (w : WorkingState) (d : Option ByteString) : State := { s with ws := w, entData := d }

/-- An outcome with another working state and other fetched entropy in the next state. -/
def outcomeWithHidden (w : WorkingState) (d : Option ByteString) :
    Host.Outcome State Fault Refusal → Host.Outcome State Fault Refusal
  | .next t => .next (t.withHidden w d)
  | .fault r => .fault r
  | .refused r => .refused r

section Hidden

variable (w : WorkingState) (d : Option ByteString)

@[simp] theorem respond_withHidden (r : BusResponse) (s : State) :
    respond r (s.withHidden w d) = (respond r s).withHidden w d := rfl

/-- No register shows the hidden state. -/
theorem readTarget_withHidden (s : State) (tg : Target) : readTarget (s.withHidden w d) tg = readTarget s tg := by
  cases tg with
  | reg r => cases r <;> rfl
  | _ => rfl

theorem whenIdle_withHidden (s : State) {u u' : State} (hu : u' = u.withHidden w d) :
    whenIdle (s.withHidden w d) u' = (whenIdle s u).withHidden w d := by
  subst hu
  cases h : s.phase <;> simp [whenIdle, State.busy, State.withHidden, h]

theorem writeTarget_withHidden (v : Word) (s : State) (tg : Target) :
    writeTarget v (s.withHidden w d) tg = (writeTarget v s tg).withHidden w d := by
  cases tg with
  | reg r =>
    cases r with
    | config | secStrength | reqLen | aiLen | persLen | nonceLen => exact whenIdle_withHidden w d s rfl
    | _ => rfl
  | window b i =>
    cases b with
    | pers | nonce | ai => exact whenIdle_withHidden w d s rfl
    | out => rfl
  | reserved => rfl

theorem writeCmd_withHidden (v : Word) (s : State) :
    writeCmd v (s.withHidden w d) = outcomeWithHidden w d (writeCmd v s) := by
  have hphase : (s.withHidden w d).phase = s.phase := rfl
  by_cases hn : decode v = .nop
  · simp [writeCmd, hn, exec, execNop, outcomeWithHidden]
  · cases hp : s.phase <;> simp [writeCmd, hn, State.busy, hphase, hp, outcomeWithHidden] <;> rfl

theorem performAccess_withHidden (off : Nat) (a : BusAccess) (s : State) :
    performAccess off a (s.withHidden w d) = outcomeWithHidden w d (performAccess off a s) := by
  have hrst : (s.withHidden w d).rst = s.rst := rfl
  cases a with
  | read _ _ => simp [performAccess, outcomeWithHidden, readTarget_withHidden, hrst]
  | write _ _ v =>
    cases hr : s.rst with
    | true => simp [performAccess, outcomeWithHidden, hrst, hr]
    | false =>
      by_cases hc : targetOf off = .reg .cmd
      · simp [performAccess, hrst, hr, hc, writeCmd_withHidden]
      · simp [performAccess, outcomeWithHidden, hrst, hr, hc, writeTarget_withHidden]

theorem busAccess_withHidden (a : BusAccess) (s : State) :
    busAccess a (s.withHidden w d) = outcomeWithHidden w d (busAccess a s) := by
  have hcfg : (s.withHidden w d).cfg = s.cfg := rfl
  unfold busAccess
  rw [hcfg]
  split
  · rfl
  · split
    · rfl
    · exact performAccess_withHidden w d _ a s

end Hidden

/-- Settles O21: every part of an access commutes with putting other hidden values in place. -/
theorem hiddenStateHasNoAddress : Obligations.HiddenStateHasNoAddress := by
  unfold Obligations.HiddenStateHasNoAddress
  intro s t a ws' d h
  have hframe := busAccess_frame h
  have hhidden := busAccess_withHidden ws' d a s
  rw [h] at hhidden
  exact ⟨by rw [hframe], by rw [hframe], hhidden⟩

end Sys2Proof.Machine

/-! PROOF. The invariant of the machine holds after reset and every step keeps it (10_state.md R20 to R33, R44; 60_exceptions.md
R242; 70_reset_and_hazards.md R270). -/

namespace Sys2Proof.Machine

/-! ## The buffers' memory (R50) -/

/-- Every listed byte is a byte of one of the four buffers. -/
def Memory.InBuffers (c : Config) (m : Memory) : Prop :=
  ∀ x ∈ m, ∃ (b : Buf) (i : Nat), i < b.size c ∧ x.1 = b.base + i

/-- Bytes stored within a buffer are bytes of that buffer. -/
theorem Memory.inBuffers_writeBytes {c : Config} {m : Memory} (h : Memory.InBuffers c m) (b : Buf) (i : Nat) {bs : ByteString}
    (hbs : bs.length ≤ b.size c - i) : Memory.InBuffers c (Memory.writeBytes m (b.base + i) bs) := by
  intro x hx
  rcases Memory.mem_writeBytes hx with hx | ⟨hlo, hhi⟩
  · exact h x hx
  · exact ⟨b, x.1 - b.base, by omega, by omega⟩

theorem Memory.inBuffers_clearBytes {c : Config} {m : Memory} (h : Memory.InBuffers c m) (a n : Nat) :
    Memory.InBuffers c (Memory.clearBytes m a n) :=
  fun x hx => h x (Memory.mem_clearBytes hx)

/-- An input window's bytes lie below the output buffer. -/
theorem Buf.input_end_le {c : Config} (hlegal : c.legal = true) {b : Buf} (hb : b ≠ .out) : b.base + b.size c ≤ 0x10000 := by
  have hmax := legal_maxStr hlegal
  cases b with
  | out => exact absurd rfl hb
  | _ => simp only [Buf.base, Buf.size]; omega

/-- No register write stores to a buffer. -/
@[simp] theorem writeReg_mem (v : Word) (s : State) (r : Reg) : (writeReg v s r).mem = s.mem := by
  cases r with
  | config | secStrength | reqLen | aiLen | persLen | nonceLen => exact whenIdle_field State.mem rfl
  | _ => rfl

/-- What a write of a target other than CMD does to the memory (R78). -/
theorem writeTarget_mem_cases (v : Word) (s : State) (tg : Target) :
    (writeTarget v s tg).mem = s.mem
    ∨ ∃ (b : Buf) (i : Nat) (bs : ByteString), b ≠ .out ∧ bs.length ≤ b.size s.cfg - i
        ∧ (writeTarget v s tg).mem = Memory.writeBytes s.mem (b.base + i) bs := by
  cases tg with
  | reg r => exact .inl (writeReg_mem v s r)
  | window b i =>
    by_cases hb : b = .out
    · exact .inl (by rw [hb]; rfl)
    · rw [writeTarget_inputWindow hb]
      cases hp : s.phase with
      | busy => exact .inl (by rw [whenIdle_of_busy hp])
      | idle => exact .inr ⟨b, i, _, hb, List.length_take_le _ _, by rw [whenIdle_of_idle hp]; rfl⟩
  | reserved => exact .inl rfl

/-- A register write never sets DONE (R45). -/
theorem writeReg_done_false {s : State} (v : Word) (r : Reg) (h : s.done = false) : (writeReg v s r).done = false := by
  cases r with
  | config | secStrength | reqLen | aiLen | persLen | nonceLen =>
    rw [← h]
    exact whenIdle_field State.done rfl
  | status => simp [writeReg, h]
  | _ => exact h

/-- A write of a target other than CMD never sets DONE (R45). -/
theorem writeTarget_done_false {s : State} (v : Word) (tg : Target) (h : s.done = false) :
    (writeTarget v s tg).done = false := by
  cases tg with
  | reg r => exact writeReg_done_false v r h
  | window b i =>
    by_cases hb : b = .out
    · rw [hb]
      exact h
    · rw [writeTarget_inputWindow hb, ← h]
      exact whenIdle_field State.done rfl
  | reserved => exact h

/-! ## The data's part of the invariant -/

/-- The part of the invariant that speaks of the memory, the working state and the latched fields, and so not of the command
phase, the entropy port, the status or reset. -/
structure State.DataInv (s : State) : Prop where
  legal : s.cfg.legal = true
  memWf : Memory.wf s.mem
  memBuffers : Memory.InBuffers s.cfg s.mem
  notReady : s.lifecycle ≠ .ready →
    s.ws = WorkingState.zero ∧ s.rc = 0#64 ∧ s.ssL = 0#16 ∧ s.mechL = .hash ∧ s.tdesL = false
    ∧ ∀ i, i < outBytes → Memory.read s.mem (Buf.base .out + i) = 0x00#8
  shaped : s.lifecycle = .ready → s.ws.shaped s.cfg s.mechL
  counter : s.lifecycle = .ready → 1 ≤ s.rc.toNat ∧ s.rc.toNat ≤ reseedMax s.mechL s.tdesL + 1
  tdesFlag : s.lifecycle = .ready → s.tdesL = (s.mechL == .ctr && s.cfg.cIsTdea)
  strength : s.lifecycle = .ready → s.ssL.toNat ≤ s.cfg.mechMaxStrength
    ∧ s.ssL.toNat ≤ primMax s.cfg s.mechL ∧ s.ssL.toNat ≤ s.cfg.entSizeBits.toNat

theorem State.Inv.dataInv {s : State} (h : s.Inv) : s.DataInv := { h with }

/-- A write of a target other than CMD keeps the data: it stores within the input windows only. -/
theorem writeTarget_dataInv {s : State} (hs : s.DataInv) (v : Word) (tg : Target) : (writeTarget v s tg).DataInv := by
  have hmem := writeTarget_mem_cases v s tg
  rw [writeTarget_frame]
  rcases hmem with hmem | ⟨b, i, bs, hb, hbs, hmem⟩
  · exact { hs with
      memWf := hmem ▸ hs.memWf
      memBuffers := hmem ▸ hs.memBuffers
      notReady := by simpa only [hmem] using hs.notReady }
  · have hend := Buf.input_end_le hs.legal hb
    have hout (k : Nat) : Memory.read (writeTarget v s tg).mem (Buf.base .out + k) = Memory.read s.mem (Buf.base .out + k) := by
      rw [hmem]
      by_cases hi : bs = []
      · rw [hi, Memory.writeBytes_nil]
      · have hpos := List.length_pos_iff.mpr hi
        exact Memory.read_writeBytes_outside _ _ _ _ (.inr (by simp only [Buf.base] at hend ⊢; omega))
    exact { hs with
      memWf := hmem ▸ Memory.wf_writeBytes hs.memWf _ _
      memBuffers := hmem ▸ Memory.inBuffers_writeBytes hs.memBuffers b i hbs
      notReady := by simpa only [hout] using hs.notReady }

/-! ## The commands' commits -/

/-- Zeroization leaves the data of UNINST and of ERROR (R44). -/
theorem zeroize_dataInv {s : State} (hs : s.DataInv) {l : Lifecycle} (hl : l ≠ .ready) :
    { zeroize s with lifecycle := l }.DataInv where
  legal := hs.legal
  memWf := Memory.wf_clearBytes hs.memWf _ _
  memBuffers := Memory.inBuffers_clearBytes hs.memBuffers _ _
  notReady _ := by
    refine ⟨rfl, rfl, rfl, rfl, rfl, fun i hi => Memory.read_clearOut s.mem ?_⟩
    simp only [Buf.base, outBytes] at hi ⊢
    omega
  shaped h := absurd h hl
  counter h := absurd h hl
  tdesFlag h := absurd h hl
  strength h := absurd h hl

theorem starveChanges_dataInv {s : State} (hs : s.DataInv) : (starveChanges s).DataInv := by
  rcases starveChanges_cases s with ⟨_, hx⟩ | ⟨_, hx⟩ <;> rw [hx]
  · exact zeroize_dataInv hs (by decide)
  · exact hs

theorem instantiateCommit_dataInv {s : State} (hs : s.DataInv) {m : Mech} (e : ByteString)
    (hc : instantiateChecks s = .ok m) : (instantiateCommit m e s).DataInv := by
  obtain ⟨_, _, _, _, hmech, hprim, hcap⟩ := (instantiateChecks_ok_iff s m).mp hc
  exact { hs with
    notReady := fun h => absurd rfl h
    shaped := fun _ => mechInstantiate_shaped hs.legal m e _ _
    counter := fun _ => ⟨Nat.le_refl 1, Nat.le_add_left _ _⟩
    tdesFlag := fun _ => rfl
    strength := fun _ => ⟨hmech, hprim, hcap⟩ }

theorem reseedCommit_dataInv {s : State} (hs : s.DataInv) (hready : s.lifecycle = .ready) (aip : Bool) (e : ByteString) :
    (reseedCommit aip e s).DataInv :=
  { hs with
    notReady := fun h => absurd hready h
    shaped := fun _ => mechReseed_shaped hs.legal s.mechL s.tdesL s.ws e _
    counter := fun _ => ⟨Nat.le_refl 1, Nat.le_add_left _ _⟩ }

/-- The ceilings of R121 are within 64 and 32 bits. -/
theorem reseedMax_bounds (m : Mech) (tdes : Bool) : 1 ≤ reseedMax m tdes ∧ reseedMax m tdes ≤ reseedMaxStd := by
  unfold reseedMax
  split <;> decide

theorem maxReqBits_le (m : Mech) (tdes : Bool) : maxReqBits m tdes ≤ maxReqBitsStd := by
  unfold maxReqBits
  split <;> decide

/-- A counter that is not past the ceiling is incremented without a wrap (R31). -/
theorem counter_succ_toNat {m : Mech} {tdes : Bool} {rc : BitVec 64} (h : rc.toNat ≤ reseedMax m tdes) :
    (rc + 1#64).toNat = rc.toNat + 1 := by
  have hmax := (reseedMax_bounds m tdes).2
  have hstd : reseedMaxStd = 2 ^ 48 := rfl
  rw [BitVec.toNat_add, BitVec.toNat_ofNat]
  omega

theorem generateCommit_dataInv {s : State} (hs : s.DataInv) {aip : Bool} (hc : generateChecks aip s = none)
    {w : WorkingState} (hw : w.shaped s.cfg s.mechL) {rc : BitVec 64} (hrc : rc.toNat ≤ reseedMax s.mechL s.tdesL)
    (ai : Option ByteString) : (generateCommit w rc ai s).DataInv := by
  obtain ⟨hready, _, hreq, _⟩ := (generateChecks_none_iff aip s).mp hc
  have hout : (mechGenerate s.cfg s.mechL s.tdesL w rc.toNat s.requestBytes ai).1.length ≤ Buf.size s.cfg .out - 0 := by
    have hmax := maxReqBits_le s.mechL s.tdesL
    rw [mechGenerate_length hs.legal]
    simp only [State.requestBytes, Buf.size, outBytes, maxReqBitsStd] at hmax ⊢
    omega
  exact { hs with
    memWf := Memory.wf_writeBytes hs.memWf _ _
    memBuffers := Memory.inBuffers_writeBytes hs.memBuffers .out 0 hout
    notReady := fun h => absurd hready h
    shaped := fun _ => mechGenerate_shaped hs.legal hw _ _ _ ai
    counter := fun _ => by
      rw [generateCommit_rc, counter_succ_toNat hrc]
      exact ⟨Nat.le_add_left _ _, Nat.succ_le_succ hrc⟩ }

theorem commits_dataInv {s u : State} {i : Instr} {result : Word} (hs : s.DataInv) (h : Commits s i result u) : u.DataInv := by
  cases h with
  | instantiate e hc => exact instantiateCommit_dataInv hs e hc
  | reseed e hc => exact reseedCommit_dataInv hs ((reseedChecks_none_iff _ s).mp hc).1 _ e
  | generate hc =>
    obtain ⟨hready, _, _, hrc⟩ := (generateChecks_none_iff _ s).mp hc
    exact generateCommit_dataInv hs hc (hs.shaped hready) hrc _
  | generateReseeded e hc =>
    exact generateCommit_dataInv hs hc (mechReseed_shaped hs.legal _ _ _ _ _) (rc := 1#64) (reseedMax_bounds _ _).1 _
  | uninstantiate => exact zeroize_dataInv hs (by decide)

/-- RESULT of a completion with OK is at most the largest request (R46, R117). -/
theorem commits_result_le {s u : State} {i : Instr} {result : Word} (h : Commits s i result u) :
    result.toNat ≤ maxReqBitsStd := by
  have request {aip : Bool} (hc : generateChecks aip s = none) :
      (BitVec.ofNat 32 (8 * s.requestBytes)).toNat ≤ maxReqBitsStd := by
    obtain ⟨_, _, hreq, _⟩ := (generateChecks_none_iff aip s).mp hc
    calc (BitVec.ofNat 32 (8 * s.requestBytes)).toNat ≤ 8 * s.requestBytes := BitVec.toNat_ofNat _ _ ▸ Nat.mod_le _ _
      _ ≤ maxReqBits s.mechL s.tdesL := hreq
      _ ≤ maxReqBitsStd := maxReqBits_le _ _
  cases h with
  | instantiate _ _ | reseed _ _ | uninstantiate => exact Nat.zero_le _
  | generate hc => exact request hc
  | generateReseeded _ hc => exact request hc

theorem commits_rst {s u : State} {i : Instr} {result : Word} (h : Commits s i result u) : u.rst = s.rst := by
  cases h <;> rfl

theorem starveChanges_rst (s : State) : (starveChanges s).rst = s.rst := by
  rcases starveChanges_cases s with ⟨_, hx⟩ | ⟨_, hx⟩ <;> rw [hx]
  rfl

/-! ## The whole invariant -/

/-- With reset released the invariant says nothing of the reset values. -/
theorem heldInReset_of_released {s : State} (hr : s.rst = false) : s.rst = true → s = s.resetBlock :=
  fun h => absurd (hr.symm.trans h) (by decide)

/-- A completion gives back the whole invariant from its data (R131). -/
theorem complete_inv {u : State} (hu : u.DataInv) (hr : u.rst = false) {code : ResultCode} {result : Word}
    (hresult : (code ≠ .ok → result = rejectResult code) ∧ (code = .ok → result.toNat ≤ maxReqBitsStd)) :
    (complete code result u).Inv :=
  { hu with
    idlePort := fun _ => ⟨rfl, rfl⟩
    busyDone := nofun
    busyCommand := nofun
    answerBound := nofun
    resultWord := hresult
    heldInReset := heldInReset_of_released hr }

theorem reject_inv {s : State} (hs : s.DataInv) (hr : s.rst = false) {code : ResultCode} (hc : code ≠ .ok) :
    (reject code s).Inv :=
  complete_inv hs hr ⟨fun _ => rfl, fun h => absurd h hc⟩

/-- A running command keeps the invariant. -/
theorem runs_inv {s t : State} {i : Instr} (hs : s.Inv) (hr : s.rst = false) (hp : s.phase = .busy) (h : Runs s i t) :
    t.Inv := by
  cases h with
  | nop => exact hs
  | rejects _ hc => exact reject_inv hs.dataInv hr hc.ne_ok
  | waits _ _ =>
    exact { hs with
      idlePort := fun hidle => by rw [awaitEntropy_phase, hp] at hidle; cases hidle
      heldInReset := heldInReset_of_released hr }
  | starves _ =>
    exact complete_inv (starveChanges_dataInv hs.dataInv) ((starveChanges_rst s).trans hr) ⟨fun _ => rfl, nofun⟩
  | commits hu =>
    exact complete_inv (commits_dataInv hs.dataInv hu) ((commits_rst hu).trans hr)
      ⟨fun h => absurd rfl h, fun _ => commits_result_le hu⟩

theorem controllerTurn_inv {s t : State} (hs : s.Inv) (h : controllerTurn s = .next t) : t.Inv := by
  rcases controllerTurn_cases s with ⟨_, hx⟩ | ⟨hr, hp, hx⟩ <;> rw [hx] at h
  · cases h
    exact hs
  · exact runs_inv hs hr hp (runs_of_exec h)

/-- The pending events and the host's last response are no part of the invariant. -/
theorem withEvents_inv {s : State} (hs : s.Inv) (evs : List Event) : { s with events := evs }.Inv :=
  { hs with heldInReset := fun hr => congrArg (fun u : State => { u with events := evs }) (hs.heldInReset hr) }

theorem respond_inv {s : State} (hs : s.Inv) (r : BusResponse) : (respond r s).Inv :=
  { hs with heldInReset := fun hr => congrArg (respond r) (hs.heldInReset hr) }

theorem writeTarget_inv {s : State} (hs : s.Inv) (hr : s.rst = false) (v : Word) (tg : Target) : (writeTarget v s tg).Inv := by
  have hdata := writeTarget_dataInv hs.dataInv v tg
  have hdone := writeTarget_done_false (s := s) v tg
  rw [writeTarget_frame] at hdata ⊢
  exact { hdata, hs with
    busyDone := fun hp => hdone (hs.busyDone hp)
    heldInReset := heldInReset_of_released hr }

theorem writeCmd_inv {s t : State} (hs : s.Inv) (hr : s.rst = false) {w : Word} (h : writeCmd w s = .next t) : t.Inv := by
  rcases writeCmd_cases w s with ⟨_, hx⟩ | ⟨_, _, hx⟩ | ⟨hd, _, hx⟩ <;> rw [hx] at h <;> cases h
  · exact hs
  · exact { hs with heldInReset := heldInReset_of_released hr }
  · exact { hs with
      idlePort := nofun
      busyDone := fun _ => rfl
      busyCommand := fun _ => hd
      heldInReset := heldInReset_of_released hr }

theorem busAccess_inv {a : BusAccess} {s t : State} (hs : s.Inv) (h : busAccess a s = .next t) : t.Inv := by
  rcases busAccess_cases a s with ⟨_, hx⟩ | ⟨_, _, hx⟩ | ⟨_, _, hx⟩ <;> rw [hx] at h
  · cases h
  · cases h
    exact respond_inv hs _
  · rcases performAccess_cases (a.addr - s.cfg.drbgBase) a s with
      ⟨r, hy⟩ | ⟨_, _, w, _, hr, _, hy⟩ | ⟨_, _, w, _, hr, _, hy⟩ <;> rw [hy] at h
    · cases h
      exact respond_inv hs r
    · exact writeCmd_inv (respond_inv hs _) hr h
    · cases h
      exact writeTarget_inv (respond_inv hs _) hr w _

theorem entropyAnswer_inv {e : ByteString} {s t : State} (hs : s.Inv) (h : entropyAnswer e s = .next t) : t.Inv := by
  rcases entropyAnswer_cases e s with ⟨_, hx⟩ | ⟨he, hq, hr, hx⟩ | ⟨_, _, hx⟩ <;> rw [hx] at h <;> cases h
  · exact { hs with
      idlePort := fun hidle => absurd (hq.symm.trans (hs.idlePort hidle).1) (by decide)
      answerBound := fun e' he' => Option.some.inj he' ▸ he
      heldInReset := heldInReset_of_released hr }
  · exact hs

/-- The reset values meet the invariant under every legal configuration. -/
theorem resetBlock_inv {s : State} (hlegal : s.cfg.legal = true) (level : Bool) : { s.resetBlock with rst := level }.Inv where
  legal := hlegal
  memWf := Memory.wf_reset
  memBuffers := nofun
  notReady _ := ⟨rfl, rfl, rfl, rfl, rfl, fun _ _ => rfl⟩
  shaped := nofun
  counter := nofun
  tdesFlag := nofun
  strength := nofun
  idlePort _ := ⟨rfl, rfl⟩
  busyDone := nofun
  busyCommand := nofun
  answerBound := nofun
  resultWord := ⟨fun h => absurd rfl h, fun _ => Nat.zero_le _⟩
  heldInReset _ := rfl

theorem resetEdge_inv {s : State} (hs : s.Inv) (asserted : Bool) : (resetEdge asserted s).Inv := by
  cases asserted with
  | true => exact resetBlock_inv hs.legal true
  | false => exact { hs with heldInReset := nofun }

/-- Settles O57: State.reset is its own reset block under a legal configuration. -/
theorem resetMeetsInvariant : Obligations.ResetMeetsInvariant :=
  resetBlock_inv (s := State.reset) (by decide) false

/-- Settles O58: each kind of event keeps the invariant; the list of pending events is no part of it. -/
theorem stepKeepsInvariant : Obligations.StepKeepsInvariant := by
  unfold Obligations.StepKeepsInvariant
  intro s t hs hstep
  obtain ⟨_, ⟨_, hturn⟩ | ⟨ev, rest, _, hx⟩⟩ := step_cases hstep
  · exact controllerTurn_inv hs hturn
  · have hs' := withEvents_inv hs rest
    cases ev with
    | access a => exact busAccess_inv hs' hx
    | entropy e => exact entropyAnswer_inv hs' hx
    | controller => exact controllerTurn_inv hs' hx
    | reset asserted =>
      cases hx
      exact resetEdge_inv hs' asserted

end Sys2Proof.Machine

/-! PROOF. The host's view of the memory and of a running command (20_memory.md R74, R77, R78, R80, R85; 41_commands.md R131,
R133). -/

namespace Sys2Proof.Machine

/-! ## Unused offsets (R74) -/

/-- No register and no byte of a buffer is there (R74). -/
def Target.Unused (c : Config) : Target → Prop
  | .reg _ => False
  | .window b i => b.size c ≤ i
  | .reserved => True

theorem readTarget_unused {s : State} {tg : Target} (h : tg.Unused s.cfg) : readTarget s tg = 0#32 := by
  cases tg with
  | reg r => exact h.elim
  | window b i => exact (window_beyond s b 0#32 h).1
  | reserved => rfl

theorem writeTarget_unused {s : State} {tg : Target} (v : Word) (h : tg.Unused s.cfg) : writeTarget v s tg = s := by
  cases tg with
  | reg r => exact h.elim
  | window b i =>
    by_cases hb : b = .out
    · rw [hb]
      rfl
    · rw [writeTarget_inputWindow hb, (window_beyond s b v h).2]
      exact ite_self s
  | reserved => rfl

theorem Buf.size_input (c : Config) {b : Buf} (hb : b ≠ .out) : b.size c = c.maxStrBytes := by
  cases b with
  | out => exact absurd rfl hb
  | _ => rfl

/-- An input window's offset at or above MAX_STR_BYTES. -/
theorem targetOf_unused_window {c : Config} {b : Buf} (hb : b ≠ .out) {off : Nat} (hlo : b.base + c.maxStrBytes ≤ off)
    (hhi : off < b.base + 0x400) : (targetOf off).Unused c := by
  have hsize := Buf.size_input c hb
  obtain ⟨i, rfl⟩ : ∃ i, off = b.base + i := Nat.exists_eq_add_of_le (by omega)
  rw [targetOf_window b i (by rw [if_neg hb]; omega)]
  show b.size c ≤ i
  omega

/-- Settles O10: each range of offsets reaches an unused target. -/
theorem reservedOffsetsReadZeroIgnoreWrites : Obligations.ReservedOffsetsReadZeroIgnoreWrites := by
  unfold Obligations.ReservedOffsetsReadZeroIgnoreWrites
  intro s off v hr h4 hoff
  have hlt : off < 0x20000 := by omega
  have hunused : (targetOf off).Unused s.cfg := by
    rcases hoff with h | h | ⟨hlo, hhi⟩ | ⟨hlo, hhi⟩ | ⟨hlo, hhi⟩
    · rw [targetOf_reserved (.inl h)]
      trivial
    · rw [targetOf_reserved (.inr h)]
      trivial
    · exact targetOf_unused_window (b := .pers) (by decide) hlo hhi
    · exact targetOf_unused_window (b := .nonce) (by decide) hlo hhi
    · exact targetOf_unused_window (b := .ai) (by decide) hlo hhi
  have hcmd : targetOf off ≠ .reg .cmd := fun hc => by
    rw [hc] at hunused
    exact hunused
  constructor
  · rw [busAccess_read s hlt h4 hr, readTarget_unused hunused]
    rfl
  · rw [busAccess_write s v hlt h4 hr hcmd, writeTarget_unused v (by simpa using hunused)]
    rfl

/-! ## Lanes (R77) -/

@[simp] theorem bytesOfWord_length (v : Word) : (bytesOfWord v).length = 4 := rfl

/-- String byte `k` of a word is its lane `k`. -/
theorem bytesOfWord_getD (v : Word) {k : Nat} (hk : k < 4) (d : Byte) :
    (bytesOfWord v).getD k d = v.extractLsb' (8 * k) 8 := by
  interval_cases k <;> rfl

/-- Lane `k` of a word read from a window is the window's byte `k` from there on. -/
theorem readWindow_lane (s : State) (b : Buf) (i : Nat) {k : Nat} (hk : k < 4) :
    (readWindow s b i).extractLsb' (8 * k) 8 = windowByte s b (i + k) := by
  obtain ⟨h0, h1, h2, h3⟩ :=
    wordOfBytes_lane (windowByte s b i) (windowByte s b (i + 1)) (windowByte s b (i + 2)) (windowByte s b (i + 3))
  interval_cases k
  · exact h0
  · exact h1
  · exact h2
  · exact h3

/-! ## Window accesses (R78) -/

theorem Buf.base_aligned (b : Buf) : b.base % 4 = 0 := by cases b <;> rfl

/-- A buffer of a platform with MAX_STR_BYTES ≤ 1024 fits its window (R6, R47). -/
theorem Buf.size_le_window {c : Config} (h : c.maxStrBytes ≤ 1024) (b : Buf) :
    b.size c ≤ if b = .out then 0x10000 else 0x400 := by
  cases b with
  | out => exact Nat.le_refl _
  | _ => exact h

/-- A read of an aligned window offset. -/
theorem busAccess_read_window {s : State} (hr : s.rst = false) {b : Buf} {i : Nat}
    (hi : i < if b = .out then 0x10000 else 0x400) (h4 : (b.base + i) % 4 = 0) :
    busAccess (.read (s.cfg.drbgBase + (b.base + i)) 4) s = .next (respond (.readResp false (readWindow s b i)) s) := by
  have hlt : b.base + i < 0x20000 := by cases b <;> simp [Buf.base] at hi ⊢ <;> omega
  rw [busAccess_read s hlt h4 hr, targetOf_window b i hi]
  rfl

/-- Settles O18: each lane of the word read is a byte of the window. -/
theorem windowReadAnswersLanes : Obligations.WindowReadAnswersLanes := by
  unfold Obligations.WindowReadAnswersLanes
  intro s b j hr hmax hj
  have halign : (b.base + 4 * j) % 4 = 0 := by have := b.base_aligned; omega
  refine ⟨readWindow s b (4 * j), ?_, fun k hk => readWindow_lane s b (4 * j) hk⟩
  exact busAccess_read_window hr (hj.trans_le (b.size_le_window hmax)) halign

/-- What a window write does to the byte at every offset: the word's bytes below the buffer's size are stored. -/
theorem read_writeWindow (v : Word) (b : Buf) (i : Nat) (s : State) (a : Nat) :
    Memory.read (writeWindow v b i s).mem a
      = if b.base + i ≤ a ∧ a < b.base + i + min (b.size s.cfg - i) 4
        then ((bytesOfWord v).take (b.size s.cfg - i)).getD (a - (b.base + i)) Memory.unlisted
        else Memory.read s.mem a := by
  rw [writeWindow_mem, Memory.read_writeBytes, List.length_take, bytesOfWord_length]

/-- A lane below the buffer's size is stored. -/
theorem read_writeWindow_lane (v : Word) (b : Buf) (i : Nat) (s : State) {k : Nat} (hk : k < 4)
    (hsize : i + k < b.size s.cfg) :
    Memory.read (writeWindow v b i s).mem (b.base + (i + k)) = v.extractLsb' (8 * k) 8 := by
  have hoffset : b.base + (i + k) - (b.base + i) = k := by omega
  rw [read_writeWindow, if_pos (by omega), hoffset, ← bytesOfWord_getD v hk Memory.unlisted,
    List.getD_eq_getElem?_getD, List.getElem?_take_of_lt (by omega), ← List.getD_eq_getElem?_getD]

/-- Settles O17: the write reaches the window while idle, and its memory is known byte by byte. -/
theorem windowWriteStoresLanes : Obligations.WindowWriteStoresLanes := by
  unfold Obligations.WindowWriteStoresLanes
  intro s b j v hr hp hb hmax hj
  have halign : (b.base + 4 * j) % 4 = 0 := by have := b.base_aligned; omega
  have hsize := Buf.size_input s.cfg hb
  have hwrite : busAccess (.write (s.cfg.drbgBase + (b.base + 4 * j)) 4 v) s
      = .next (writeWindow v b (4 * j) (respond (.writeResp false) s)) := by
    rw [busAccess_write_window hr v ((hsize ▸ hj).trans_le (b.size_le_window hmax)) halign,
      writeTarget_inputWindow hb, whenIdle_of_idle (by simpa using hp)]
  refine ⟨_, hwrite, rfl, fun k hk hin => ?_, fun a ha => ?_⟩
  · exact read_writeWindow_lane v b (4 * j) _ hk (by simpa [hsize] using hin)
  · rw [read_writeWindow, respond_cfg, hsize, if_neg (by omega), respond_mem]

/-! ## Reads (R80) -/

/-- No register and no window shows the last bus response. -/
theorem readTarget_respond (r : BusResponse) (s : State) (tg : Target) : readTarget (respond r s) tg = readTarget s tg := by
  cases tg with
  | reg r => cases r <;> rfl
  | _ => rfl

/-- Only the last response is held. -/
theorem respond_respond (r r' : BusResponse) (s : State) : respond r (respond r' s) = respond r s := rfl

/-- A read is answered, to no other effect, and its answer does not depend on the last response. -/
theorem busAccess_read_respond {s : State} {addr : Nat} (w : Nat) (h : inSpace s.cfg addr = true) :
    ∃ r, busAccess (.read addr w) s = .next (respond r s)
      ∧ ∀ r', busAccess (.read addr w) (respond r' s) = .next (respond r s) := by
  cases hw : wellShaped s.cfg (.read addr w) with
  | false =>
    refine ⟨.readResp true 0#32, ?_, fun r' => ?_⟩
    · simp [busAccess, BusAccess.addr, BusAccess.errorResponse, h, hw]
    · simp [busAccess, BusAccess.addr, BusAccess.errorResponse, h, hw, respond_respond]
  | true =>
    refine ⟨.readResp false (if s.rst then 0#32 else readTarget s (targetOf (addr - s.cfg.drbgBase))), ?_, fun r' => ?_⟩
    · simp [busAccess, BusAccess.addr, performAccess, h, hw]
    · simp [busAccess, BusAccess.addr, performAccess, readTarget_respond, respond_respond, h, hw]

/-- Settles O20: a read only answers, and the answer shows nothing of the response before it. -/
theorem readsHaveNoSideEffect : Obligations.ReadsHaveNoSideEffect := by
  unfold Obligations.ReadsHaveNoSideEffect
  intro s addr w h
  obtain ⟨r, hfirst, hagain⟩ := busAccess_read_respond w h
  exact ⟨_, hfirst, rfl, hagain r⟩

/-! ## Accesses during a command (R85, R133) -/

/-- The fields that an access changes while BUSY (R68, R130), with other values. -/
def State.withHostFields (s : State) (done dropped doneIe : Bool) (resp : Option BusResponse) : State :=
  { s with done := done, cmdDropped := dropped, doneIe := doneIe, busResp := resp }

section HostFields

variable (d c ie : Bool) (r : Option BusResponse)

/-! No command reads one of these fields. -/

@[simp] theorem withHostFields_cfg (s : State) : (s.withHostFields d c ie r).cfg = s.cfg := rfl
@[simp] theorem withHostFields_ws (s : State) : (s.withHostFields d c ie r).ws = s.ws := rfl
@[simp] theorem withHostFields_rc (s : State) : (s.withHostFields d c ie r).rc = s.rc := rfl
@[simp] theorem withHostFields_ssL (s : State) : (s.withHostFields d c ie r).ssL = s.ssL := rfl
@[simp] theorem withHostFields_mechL (s : State) : (s.withHostFields d c ie r).mechL = s.mechL := rfl
@[simp] theorem withHostFields_tdesL (s : State) : (s.withHostFields d c ie r).tdesL = s.tdesL := rfl
@[simp] theorem withHostFields_secStrength (s : State) : (s.withHostFields d c ie r).secStrength = s.secStrength := rfl
@[simp] theorem withHostFields_entData (s : State) : (s.withHostFields d c ie r).entData = s.entData := rfl
@[simp] theorem withHostFields_additionalInput (s : State) (aip : Bool) :
    (s.withHostFields d c ie r).additionalInput aip = s.additionalInput aip := rfl
@[simp] theorem instantiateChecks_withHostFields (s : State) :
    instantiateChecks (s.withHostFields d c ie r) = instantiateChecks s := rfl
@[simp] theorem reseedChecks_withHostFields (aip : Bool) (s : State) :
    reseedChecks aip (s.withHostFields d c ie r) = reseedChecks aip s := rfl
@[simp] theorem generateChecks_withHostFields (aip : Bool) (s : State) :
    generateChecks aip (s.withHostFields d c ie r) = generateChecks aip s := rfl

/-! A command that waits leaves them; a completion sets DONE, whatever stood there (R131), and leaves the others. -/

@[simp] theorem awaitEntropy_withHostFields (s : State) :
    awaitEntropy (s.withHostFields d c ie r) = (awaitEntropy s).withHostFields d c ie r := rfl
@[simp] theorem instantiateCommit_withHostFields (m : Mech) (e : ByteString) (s : State) :
    instantiateCommit m e (s.withHostFields d c ie r) = (instantiateCommit m e s).withHostFields d c ie r := rfl
@[simp] theorem reseedCommit_withHostFields (aip : Bool) (e : ByteString) (s : State) :
    reseedCommit aip e (s.withHostFields d c ie r) = (reseedCommit aip e s).withHostFields d c ie r := rfl
@[simp] theorem complete_withHostFields (code : ResultCode) (result : Word) (s : State) :
    complete code result (s.withHostFields d c ie r) = (complete code result s).withHostFields true c ie r := rfl
@[simp] theorem reject_withHostFields (code : ResultCode) (s : State) :
    reject code (s.withHostFields d c ie r) = (reject code s).withHostFields true c ie r := rfl
@[simp] theorem generateDone_withHostFields (w : WorkingState) (rc : BitVec 64) (ai : Option ByteString) (s : State) :
    generateDone w rc ai (s.withHostFields d c ie r) = (generateDone w rc ai s).withHostFields true c ie r := rfl
@[simp] theorem starve_withHostFields (s : State) :
    starve (s.withHostFields d c ie r) = (starve s).withHostFields true c ie r := by
  cases hf : s.cfg.fatalSticky <;> simp [starve, starveChanges, State.withHostFields, complete, zeroize, hf]

/-- The run of the command `i` with the other values, beside its run from `s` to `t`: one that does not end keeps them, one
that completes sets DONE. -/
def RunsAlike (i : Instr) (s t : State) : Prop :=
  (t.phase = s.phase ∧ exec i (s.withHostFields d c ie r) = .next (t.withHostFields d c ie r))
  ∨ exec i (s.withHostFields d c ie r) = .next (t.withHostFields true c ie r)

theorem runsAlike_instantiate {s t : State} (h : execInstantiate s = .next t) : RunsAlike d c ie r .instantiate s t := by
  rcases execInstantiate_cases s with ⟨code, hc, hx⟩ | ⟨m, hc, ⟨hd, hx⟩ | ⟨e, hd, he, hx⟩ | ⟨e, hd, he, hx⟩⟩ <;>
    cases hx.symm.trans h
  · exact .inr (by simp [exec, execInstantiate, hc])
  · exact .inl ⟨rfl, by simp [exec, execInstantiate, hc, hd]⟩
  · exact .inr (by simp [exec, execInstantiate, hc, hd, he])
  · exact .inr (by simp [exec, execInstantiate, hc, hd, he])

theorem runsAlike_reseed {aip : Bool} {s t : State} (h : execReseed aip s = .next t) :
    RunsAlike d c ie r (.reseed aip) s t := by
  rcases execReseed_cases aip s with ⟨code, hc, hx⟩ | ⟨hc, ⟨hd, hx⟩ | ⟨e, hd, he, hx⟩ | ⟨e, hd, he, hx⟩⟩ <;>
    cases hx.symm.trans h
  · exact .inr (by simp [exec, execReseed, hc])
  · exact .inl ⟨rfl, by simp [exec, execReseed, hc, hd]⟩
  · exact .inr (by simp [exec, execReseed, hc, hd, he])
  · exact .inr (by simp [exec, execReseed, hc, hd, he])

theorem runsAlike_generate {pr aip : Bool} {s t : State} (h : execGenerate pr aip s = .next t) :
    RunsAlike d c ie r (.generate pr aip) s t := by
  rcases execGenerate_cases pr aip s with
      ⟨code, hc, hx⟩ | ⟨hc, ⟨rfl, hx⟩ | ⟨rfl, hd, hx⟩ | ⟨e, rfl, hd, he, hx⟩ | ⟨e, rfl, hd, he, hx⟩⟩ <;>
    cases hx.symm.trans h
  · exact .inr (by simp [exec, execGenerate, hc])
  · exact .inr (by simp [exec, execGenerate, hc])
  · exact .inl ⟨rfl, by simp [exec, execGenerate, hc, hd]⟩
  · exact .inr (by simp [exec, execGenerate, hc, hd, he])
  · exact .inr (by simp [exec, execGenerate, hc, hd, he])

/-- Every meaning, by its command. -/
theorem runsAlike_of_exec {i : Instr} {s t : State} (h : exec i s = .next t) : RunsAlike d c ie r i s t := by
  cases i with
  | nop => cases h; exact .inl ⟨rfl, rfl⟩
  | instantiate => exact runsAlike_instantiate d c ie r h
  | reseed aip => exact runsAlike_reseed d c ie r h
  | generate pr aip => exact runsAlike_generate d c ie r h
  | _ => cases h; exact .inr rfl

end HostFields

/-- Settles O27: while BUSY an access gives other values to the host's fields only, and the command runs alike with them. -/
theorem busyAccessesCommuteWithCommand : Obligations.BusyAccessesCommuteWithCommand := by
  unfold Obligations.BusyAccessesCommuteWithCommand
  intro s s' t a i hp haccess hexec
  have hs' : s' = s.withHostFields s'.done s'.cmdDropped s'.doneIe s'.busResp := busAccess_busy haccess hp
  rcases runsAlike_of_exec s'.done s'.cmdDropped s'.doneIe s'.busResp hexec with ⟨hphase, hx⟩ | hx <;> rw [← hs'] at hx
  · refine ⟨_, hx, rfl, fun hidle => ?_⟩
    rw [hidle, hp] at hphase
    cases hphase
  · exact ⟨_, hx, rfl, fun _ => rfl⟩

end Sys2Proof.Machine

/-! PROOF. The command encoding: the decoder's table, and which bits of a word decide its command (30_encoding.md R90 to R98). -/

namespace Sys2Proof.Machine

/-! ## The encodings' fields, for every command -/

theorem encodedFields (i : Instr) : Laws.EncodedFields.Statement i := by
  cases i with
  | nop => exact Laws.EncodedFields.nop
  | instantiate => exact Laws.EncodedFields.instantiate
  | reseed aip => exact Laws.EncodedFields.reseed aip
  | generate pr aip => exact Laws.EncodedFields.generate pr aip
  | uninstantiate => exact Laws.EncodedFields.uninstantiate
  | reserved5 => exact Laws.EncodedFields.reserved5
  | reserved6 => exact Laws.EncodedFields.reserved6
  | reserved7 => exact Laws.EncodedFields.reserved7
  | reserved8 => exact Laws.EncodedFields.reserved8
  | reserved9 => exact Laws.EncodedFields.reserved9
  | reserved10 => exact Laws.EncodedFields.reserved10
  | reserved11 => exact Laws.EncodedFields.reserved11
  | reserved12 => exact Laws.EncodedFields.reserved12
  | reserved13 => exact Laws.EncodedFields.reserved13
  | reserved14 => exact Laws.EncodedFields.reserved14
  | reserved15 => exact Laws.EncodedFields.reserved15

@[simp] theorem opcodeOf_encode (i : Instr) : opcodeOf (encode i) = i.opcode := by
  obtain ⟨_, hop, _, _, _⟩ := encodedFields i
  exact hop

@[simp] theorem prOf_encode (i : Instr) : prOf (encode i) = i.prBit := by
  obtain ⟨_, _, hpr, _, _⟩ := encodedFields i
  exact hpr

@[simp] theorem aipOf_encode (i : Instr) : aipOf (encode i) = i.aipBit := by
  obtain ⟨_, _, _, haip, _⟩ := encodedFields i
  exact haip

theorem encode_and_usedBits (i : Instr) : encode i &&& i.usedBits = encode i := by
  obtain ⟨_, _, _, _, hmask⟩ := encodedFields i
  exact hmask

/-! ## The fields of a masked word -/

theorem opcodeOf_and (w u : Word) : opcodeOf (w &&& u) = opcodeOf w &&& opcodeOf u :=
  BitVec.extractLsb'_and

@[simp] theorem prOf_and (w u : Word) : prOf (w &&& u) = (prOf w && prOf u) :=
  BitVec.getLsbD_and

@[simp] theorem aipOf_and (w u : Word) : aipOf (w &&& u) = (aipOf w && aipOf u) :=
  BitVec.getLsbD_and

/-- Every command uses the whole of OPCODE (R93). -/
theorem opcodeOf_usedBits (i : Instr) : opcodeOf i.usedBits = BitVec.allOnes 4 := by
  unfold Instr.usedBits
  split <;> decide

@[simp] theorem opcodeOf_and_usedBits (w : Word) (i : Instr) : opcodeOf (w &&& i.usedBits) = opcodeOf w := by
  rw [opcodeOf_and, opcodeOf_usedBits, BitVec.and_allOnes]

/-! ## Words are told apart by their fields -/

/-- The word with every bit of OPCODE, PR and AIP set (R90). -/
def fieldBits : Word := 0x30F#32

theorem getLsbD_fieldBits {k : Nat} (hk : k < 32) : fieldBits.getLsbD k = decide (k < 4 ∨ k = 8 ∨ k = 9) := by
  revert k
  decide

/-- No command uses a bit outside the three fields (R94). -/
theorem and_usedBits_and_fieldBits (w : Word) (i : Instr) : w &&& i.usedBits &&& fieldBits = w &&& i.usedBits := by
  have hused : i.usedBits &&& fieldBits = i.usedBits := by
    unfold Instr.usedBits
    split <;> decide
  rw [BitVec.and_assoc, hused]

theorem encode_and_fieldBits (i : Instr) : encode i &&& fieldBits = encode i := by
  rw [← encode_and_usedBits, and_usedBits_and_fieldBits]

/-- Words with every bit outside the three fields 0 are equal exactly when their fields are. -/
theorem eq_iff_fields_eq {a b : Word} (ha : a &&& fieldBits = a) (hb : b &&& fieldBits = b) :
    a = b ↔ opcodeOf a = opcodeOf b ∧ prOf a = prOf b ∧ aipOf a = aipOf b := by
  refine ⟨fun h => by simp [h], fun ⟨hop, hpr, haip⟩ => ?_⟩
  rw [← ha, ← hb]
  refine BitVec.eq_of_getLsbD_eq fun k hk => ?_
  rw [BitVec.getLsbD_and, BitVec.getLsbD_and, getLsbD_fieldBits hk]
  by_cases hfield : k < 4 ∨ k = 8 ∨ k = 9
  · have hbit : a.getLsbD k = b.getLsbD k := by
      rcases hfield with hlow | rfl | rfl
      · simpa [opcodeOf, hlow] using congrArg (BitVec.getLsbD · k) hop
      · exact hpr
      · exact haip
    rw [hbit]
  · simp [hfield]

/-! ## The decoder's table (R97) -/

/-- The row of R97 that a word's OPCODE selects. -/
theorem decode_of_opcodeOf {w : Word} (opcode : BitVec 4) (h : opcodeOf w = opcode) :
    decode w = decodeFields opcode (prOf w) (aipOf w) := by
  rw [decode, h]

/-- The command of a row has the row's OPCODE, the PR and AIP that it uses, and 0 for one that it does not use. -/
theorem decodeFields_fields (opcode : BitVec 4) (pr aip : Bool) :
    opcode = (decodeFields opcode pr aip).opcode
    ∧ (pr && prOf (decodeFields opcode pr aip).usedBits) = (decodeFields opcode pr aip).prBit
    ∧ (aip && aipOf (decodeFields opcode pr aip).usedBits) = (decodeFields opcode pr aip).aipBit := by
  revert opcode pr aip
  decide

/-- The row of a command's OPCODE, read with the PR and AIP that the command uses, is the command. -/
theorem decodeFields_opcode {i : Instr} {pr aip : Bool} (hpr : (pr && prOf i.usedBits) = i.prBit)
    (haip : (aip && aipOf i.usedBits) = i.aipBit) : decodeFields i.opcode pr aip = i := by
  cases i with
  | reseed aip' =>
    have haip' : aip = aip' := by simpa [Instr.usedBits, aipOf, Instr.aipBit] using haip
    rw [haip']
    rfl
  | generate pr' aip' =>
    have hpr' : pr = pr' := by simpa [Instr.usedBits, prOf, Instr.prBit] using hpr
    have haip' : aip = aip' := by simpa [Instr.usedBits, aipOf, Instr.aipBit] using haip
    rw [hpr', haip']
    rfl
  | _ => rfl

theorem decode_eq_iff_fields (i : Instr) (w : Word) :
    decode w = i ↔ opcodeOf w = i.opcode ∧ (prOf w && prOf i.usedBits) = i.prBit
      ∧ (aipOf w && aipOf i.usedBits) = i.aipBit := by
  constructor
  · rintro rfl
    exact decodeFields_fields _ _ _
  · rintro ⟨hop, hpr, haip⟩
    rw [decode_of_opcodeOf _ hop, decodeFields_opcode hpr haip]

/-! ## Decoder and encoder agree (R90 to R98) -/

/-- Settles O2: both sides say that the word has the command's OPCODE, and its PR and AIP where the command uses them. -/
theorem decodeIffUsedBitsMatch : Obligations.DecodeIffUsedBitsMatch := by
  unfold Obligations.DecodeIffUsedBitsMatch
  intro i w
  rw [decode_eq_iff_fields, eq_iff_fields_eq (and_usedBits_and_fieldBits w i) (encode_and_fieldBits i),
    opcodeOf_and_usedBits, prOf_and, aipOf_and, opcodeOf_encode, prOf_encode, aipOf_encode]

/-- Settles O1: an encoding has no bit that its command does not use, so O2 applies to it. -/
theorem decodeOfEncode : Obligations.DecodeOfEncode := by
  unfold Obligations.DecodeOfEncode
  intro i _
  exact (decodeIffUsedBitsMatch i (encode i)).mpr (encode_and_usedBits i)

/-- Settles O3: each row is the decoder's table at that OPCODE, with the word's PR and AIP. -/
theorem decoderFollowsTable : Obligations.DecoderFollowsTable := by
  unfold Obligations.DecoderFollowsTable
  intro w
  exact ⟨decode_of_opcodeOf 0x0#4, decode_of_opcodeOf 0x1#4, decode_of_opcodeOf 0x2#4, decode_of_opcodeOf 0x3#4,
    decode_of_opcodeOf 0x4#4, decode_of_opcodeOf 0x5#4, decode_of_opcodeOf 0x6#4, decode_of_opcodeOf 0x7#4,
    decode_of_opcodeOf 0x8#4, decode_of_opcodeOf 0x9#4, decode_of_opcodeOf 0xA#4, decode_of_opcodeOf 0xB#4,
    decode_of_opcodeOf 0xC#4, decode_of_opcodeOf 0xD#4, decode_of_opcodeOf 0xE#4, decode_of_opcodeOf 0xF#4⟩

/-! ## The operand strings (R93) -/

@[simp] theorem State.bufString_length (s : State) (b : Buf) (n : Nat) : (s.bufString b n).length = n :=
  Memory.readBytes_length _ _ _

/-- Byte `i` of a buffer's string is the byte at the buffer's offset plus `i` (R77). -/
theorem State.bufString_getD (s : State) (b : Buf) {n i : Nat} (h : i < n) :
    (s.bufString b n).getD i 0x00#8 = Memory.read s.mem (b.base + i) :=
  Memory.readBytes_getD _ _ _ _ h _

/-- Settles O19: each string is its buffer's, read up to its length register; AIP alone decides whether the AI string is
taken. -/
theorem operandStrings : Obligations.OperandStrings := by
  unfold Obligations.OperandStrings
  intro s
  exact ⟨s.bufString_length .pers _, s.bufString_length .nonce _, fun _ hi => s.bufString_getD .pers hi,
    fun _ hi => s.bufString_getD .nonce hi, rfl, _, rfl, s.bufString_length .ai _, fun _ hi => s.bufString_getD .ai hi⟩

end Sys2Proof.Machine

/-! PROOF. The datapath's arithmetic: big-endian numbers, additions, truncations, the ceilings and the comparators
(40_datapath.md R110 to R121). -/

namespace Sys2Proof.Machine

/-! ## The big-endian value (R110) -/

@[simp] theorem beInt_nil : beInt [] = 0 := rfl

theorem beInt_concat (b : ByteString) (x : Byte) : beInt (b ++ [x]) = beInt b * 256 + x.toNat := by
  simp [beInt, List.foldl_append]

theorem beInt_append (a b : ByteString) : beInt (a ++ b) = beInt a * 256 ^ b.length + beInt b := by
  induction b using List.reverseRecOn with
  | nil => simp
  | append_singleton b x ih =>
    rw [← List.append_assoc, beInt_concat, ih, beInt_concat, List.length_append, List.length_singleton]
    ring

@[simp] theorem beInt_singleton (x : Byte) : beInt [x] = x.toNat := by simpa using beInt_concat [] x

theorem beInt_cons (x : Byte) (b : ByteString) : beInt (x :: b) = x.toNat * 256 ^ b.length + beInt b := by
  simpa using beInt_append [x] b

theorem beInt_lt (b : ByteString) : beInt b < 256 ^ b.length := by
  induction b with
  | nil => simp
  | cons x b ih =>
    have hx : (x.toNat + 1) * 256 ^ b.length ≤ 256 * 256 ^ b.length := Nat.mul_le_mul_right _ x.isLt
    rw [beInt_cons, List.length_cons, Nat.pow_succ']
    linarith

theorem beInt_append_div (a b : ByteString) : beInt (a ++ b) / 256 ^ b.length = beInt a := by
  rw [beInt_append, Nat.add_comm, Nat.add_mul_div_right _ _ (by positivity), Nat.div_eq_of_lt (beInt_lt b), Nat.zero_add]

theorem beInt_append_mod (a b : ByteString) : beInt (a ++ b) % 256 ^ b.length = beInt b := by
  rw [beInt_append, Nat.mul_add_mod_self_right, Nat.mod_eq_of_lt (beInt_lt b)]

/-- Byte strings of one length are told apart by their values. -/
theorem eq_of_beInt_eq {a b : ByteString} (hlen : a.length = b.length) (h : beInt a = beInt b) : a = b := by
  induction a generalizing b with
  | nil => exact (List.eq_nil_of_length_eq_zero hlen.symm).symm
  | cons x a ih =>
    obtain _ | ⟨y, b⟩ := b
    · simp at hlen
    · have hlen' : a.length = b.length := by simpa using hlen
      have hhead : beInt [x] = beInt [y] := by
        rw [← beInt_append_div [x] a, ← beInt_append_div [y] b, hlen']
        exact congrArg (· / 256 ^ b.length) h
      have htail : beInt a = beInt b := by
        rw [← beInt_append_mod [x] a, ← beInt_append_mod [y] b, hlen']
        exact congrArg (· % 256 ^ b.length) h
      rw [beInt_singleton, beInt_singleton] at hhead
      rw [BitVec.eq_of_toNat_eq hhead, ih hlen' htail]

/-! ## Encoding a number (R110) -/

@[simp] theorem beInt_beBytes (v n : Nat) : beInt (beBytes v n) = v % 256 ^ n := by
  induction n with
  | zero => simp [beBytes, Nat.mod_one]
  | succ n ih =>
    have hbyte : (BitVec.ofNat 8 (v / 256 ^ n)).toNat = v / 256 ^ n % 256 := BitVec.toNat_ofNat _ _
    rw [beBytes, beInt_cons, ih, beBytes_length, hbyte, Nat.mod_pow_succ, Nat.add_comm, Nat.mul_comm]

theorem beBytes_beInt (b : ByteString) : beBytes (beInt b) b.length = b :=
  eq_of_beInt_eq (beBytes_length _ _) (by rw [beInt_beBytes, Nat.mod_eq_of_lt (beInt_lt b)])

/-- Settles O45: the fold over a concatenation gives the value, and strings of one length with one value are equal. -/
theorem bigEndianValueAndBytes : Obligations.BigEndianValueAndBytes := by
  unfold Obligations.BigEndianValueAndBytes
  exact ⟨beInt_cons, fun v n => ⟨beInt_beBytes v n, beBytes_length v n⟩, beBytes_beInt, beInt_nil, fun _ => ⟨rfl, rfl⟩⟩

/-! ## Addition and increment (R111, R112) -/

theorem beInt_beAdd (a : ByteString) (bs : List ByteString) :
    beInt (beAdd a bs) = (beInt a + (bs.map beInt).sum) % 256 ^ a.length := beInt_beBytes _ _

/-- Reducing the partial sum changes nothing, so one addend after the other is one sum (R111). -/
theorem beAdd_beAdd (a b c : ByteString) : beAdd (beAdd a [b]) [c] = beAdd a [b, c] :=
  eq_of_beInt_eq (by simp) (by simp [beInt_beAdd, Nat.add_assoc])

/-- Settles O46: a sum is encoded in the width of the first operand, which drops the carry. -/
theorem bigEndianAddition : Obligations.BigEndianAddition := by
  unfold Obligations.BigEndianAddition
  exact ⟨fun a bs => ⟨beAdd_length a bs, beInt_beAdd a bs⟩, beAdd_beAdd⟩

theorem beInt_inc (a : ByteString) : beInt (inc a) = (beInt a + 1) % 256 ^ a.length := by
  simp [inc, beInt_beAdd]

@[simp] theorem beInt_zeros (n : Nat) : beInt (zeros n) = 0 := by
  unfold zeros
  induction n with
  | zero => rfl
  | succ n ih => simp [List.replicate_succ, beInt_cons, ih]

/-- All bytes 0xFF are the largest number of their width. -/
theorem beInt_allOnes_succ (n : Nat) : beInt (List.replicate n 0xFF#8) + 1 = 256 ^ n := by
  induction n with
  | zero => rfl
  | succ n ih =>
    have hff : (0xFF#8).toNat = 255 := rfl
    rw [List.replicate_succ, beInt_cons, List.length_replicate, Nat.pow_succ', hff]
    omega

/-- The carry runs through every byte and out of byte 0 (R112). -/
theorem inc_allOnes (n : Nat) : inc (List.replicate n 0xFF#8) = zeros n :=
  eq_of_beInt_eq (by simp) (by simp [beInt_inc, beInt_allOnes_succ])

/-- Settles O47: an increment is an addition of one byte 0x01, and all 0xFF is one below the modulus. -/
theorem incrementWraps : Obligations.IncrementWraps := by
  unfold Obligations.IncrementWraps
  exact ⟨fun a => ⟨inc_length a, beInt_inc a⟩, inc_allOnes⟩

/-! ## Truncation (R113, R114) -/

theorem beInt_leftBytes (b : ByteString) (m : Nat) : beInt (leftBytes b m) = beInt b / 256 ^ (b.length - m) := by
  have hdiv := beInt_append_div (b.take m) (b.drop m)
  rw [List.take_append_drop, List.length_drop] at hdiv
  exact hdiv.symm

/-- The bytes that hold the first `nb` bits are all there. -/
theorem leftBytes_ceilDiv_length {b : ByteString} {nb : Nat} (h : nb ≤ 8 * b.length) :
    (leftBytes b (ceilDiv nb 8)).length = ceilDiv nb 8 := by
  rw [leftBytes_length]
  unfold ceilDiv
  omega

/-- Whole bytes or not, a bit truncation is its whole bytes shifted right by the bits that are too many (R114). -/
theorem leftBits_eq_beBytes {b : ByteString} {nb : Nat} (h : nb ≤ 8 * b.length) :
    leftBits b nb = beBytes (beInt (leftBytes b (ceilDiv nb 8)) >>> (8 * ceilDiv nb 8 - nb)) (ceilDiv nb 8) := by
  unfold leftBits
  by_cases h8 : nb % 8 = 0
  · have hshift : 8 * ceilDiv nb 8 - nb = 0 := by unfold ceilDiv; omega
    rw [if_pos h8, hshift, Nat.shiftRight_zero]
    have hbytes := beBytes_beInt (leftBytes b (ceilDiv nb 8))
    rw [leftBytes_ceilDiv_length h] at hbytes
    exact hbytes.symm
  · have hshift : 8 * ceilDiv nb 8 - nb = 8 - nb % 8 := by unfold ceilDiv; omega
    rw [if_neg h8, hshift]

theorem beInt_leftBits {b : ByteString} {nb : Nat} (h : nb ≤ 8 * b.length) :
    beInt (leftBits b nb) = beInt b / 2 ^ (8 * b.length - nb) := by
  set m := ceilDiv nb 8 with hm
  have hbits : 8 * (b.length - m) + (8 * m - nb) = 8 * b.length - nb := by rw [hm]; unfold ceilDiv; omega
  have hfit : beInt (leftBytes b m) >>> (8 * m - nb) < 256 ^ m := by
    have hlt := beInt_lt (leftBytes b m)
    rw [leftBytes_ceilDiv_length h] at hlt
    exact Nat.lt_of_le_of_lt (Nat.shiftRight_le _ _) hlt
  calc beInt (leftBits b nb)
      = beInt (leftBytes b m) >>> (8 * m - nb) := by
        rw [leftBits_eq_beBytes h, beInt_beBytes, Nat.mod_eq_of_lt hfit]
    _ = beInt b / 2 ^ (8 * (b.length - m)) / 2 ^ (8 * m - nb) := by
        rw [Nat.shiftRight_eq_div_pow, beInt_leftBytes, Nat.pow_mul]
    _ = beInt b / 2 ^ (8 * b.length - nb) := by rw [Nat.div_div_eq_div_mul, ← Nat.pow_add, hbits]

/-- Settles O48: the two shifts, by whole bytes and by the bits that are left over, are one. -/
theorem bitTruncation : Obligations.BitTruncation := by
  unfold Obligations.BitTruncation
  intro b nb h
  have hlen : (leftBits b nb).length = ceilDiv nb 8 := by rw [leftBits_eq_beBytes h, beBytes_length]
  exact ⟨hlen, beInt_leftBits h⟩

/-! ## The ceilings (R121) -/

theorem tdeaCeilings_iff (m : Mech) (tdes : Bool) : tdeaCeilings m tdes = true ↔ m = .ctr ∧ tdes = true := by
  simp [tdeaCeilings]

theorem ceilings_std {m : Mech} {tdes : Bool} (h : ¬ (m = .ctr ∧ tdes = true)) :
    maxReqBits m tdes = 2 ^ 19 ∧ reseedMax m tdes = 2 ^ 48 := by
  rw [← tdeaCeilings_iff] at h
  exact ⟨if_neg h, if_neg h⟩

theorem ceilings_tdea : maxReqBits .ctr true = 2 ^ 13 ∧ reseedMax .ctr true = 2 ^ 32 := ⟨rfl, rfl⟩

/-- Settles O50: only CTR with TDES_L has the triple-DES row. -/
theorem ceilingsTable : Obligations.CeilingsTable := by
  unfold Obligations.CeilingsTable
  obtain ⟨hctrReq, hctrReseed⟩ := ceilings_std (m := .ctr) (tdes := false) (by simp)
  refine ⟨fun td => ?_, hctrReq, hctrReseed, ceilings_tdea⟩
  obtain ⟨hhashReq, hhashReseed⟩ := ceilings_std (m := .hash) (tdes := td) (by simp)
  obtain ⟨hhmacReq, hhmacReseed⟩ := ceilings_std (m := .hmac) (tdes := td) (by simp)
  exact ⟨hhashReq, hhashReseed, hhmacReq, hhmacReseed⟩

/-! ## The comparators (R117, R120) -/

theorem tooLarge_iff (m : Mech) (tdes : Bool) (n : Nat) : tooLarge m tdes n = true ↔ maxReqBits m tdes < 8 * n :=
  decide_eq_true_iff

/-- The comparison by bytes is the comparison by bits: dividing the ceiling loses nothing (R117). -/
theorem tooLarge_iff_div_lt (m : Mech) (tdes : Bool) (n : Nat) :
    tooLarge m tdes n = true ↔ maxReqBits m tdes / 8 < n := by
  rw [tooLarge_iff, Nat.div_lt_iff_lt_mul (by decide), Nat.mul_comm]

@[simp] theorem tooLarge_zero (m : Mech) (tdes : Bool) : tooLarge m tdes 0 = false :=
  decide_eq_false (Nat.not_lt_zero _)

/-- 0x20000000 bytes are 2^32 bits, which would be 0 in 32 bits (R117). -/
theorem tooLarge_wrapping_product (m : Mech) (tdes : Bool) : tooLarge m tdes 0x20000000 = true :=
  (tooLarge_iff m tdes _).mpr (Nat.lt_of_le_of_lt (maxReqBits_le m tdes) (by decide))

/-- Settles O49: the product is not truncated, so both forms of the comparison are exact. -/
theorem requestSizeComparison : Obligations.RequestSizeComparison := by
  unfold Obligations.RequestSizeComparison
  exact ⟨fun m td n => ⟨tooLarge_iff m td n, tooLarge_iff_div_lt m td n, tooLarge_zero m td,
    tooLarge_wrapping_product m td⟩, by decide⟩

theorem ceilDiv_eight_le_iff (a n : Nat) : ceilDiv a 8 ≤ n ↔ a ≤ 8 * n := by
  unfold ceilDiv
  omega

theorem entropyOK_iff (e : ByteString) (ss : BitVec 16) : entropyOK e ss = true ↔ ceilDiv ss.toNat 8 ≤ e.length :=
  decide_eq_true_iff

/-- Settles O51: rounding the strength up to bytes loses nothing against a whole number of bytes. -/
theorem entropySufficiency : Obligations.EntropySufficiency := by
  unfold Obligations.EntropySufficiency
  intro e ss
  exact ⟨entropyOK_iff e ss, (entropyOK_iff e ss).trans (ceilDiv_eight_le_iff _ _)⟩

end Sys2Proof.Machine

/-! PROOF. The sequencing of the commands: what a CMD write does, which command a step runs, and what a step can change while a
command is BUSY and outside a completion (41_commands.md R130 to R133; 10_state.md R56). -/

namespace Sys2Proof.Machine

/-! ## The CMD write (R130, R132) -/

theorem writeCmd_of_nop {w : Word} (h : decode w = .nop) (s : State) : writeCmd w s = exec (decode w) s :=
  if_pos h

theorem writeCmd_of_idle {w : Word} {s : State} (h : decode w ≠ .nop) (hp : s.phase = .idle) :
    writeCmd w s = .next (accept w s) := by
  simp [writeCmd, State.busy, h, hp]

/-- Settles O22: the access reaches CMD, and R130's three cases are told apart by the word and by PHASE. -/
theorem cmdWriteAcceptance : Obligations.CmdWriteAcceptance := by
  unfold Obligations.CmdWriteAcceptance
  intro s w hr
  rw [busAccess_cmd s w hr]
  rcases writeCmd_cases w (respond (.writeResp false) s) with ⟨hnop, hx⟩ | ⟨hw, hp, hx⟩ | ⟨hw, hp, hx⟩ <;> rw [hx]
  · rw [if_pos hnop]
    rfl
  · rw [if_neg hw, if_pos (by simpa using hp)]
    rfl
  · have hidle : s.phase = .idle := hp
    rw [if_neg hw, if_neg (by rw [hidle]; decide)]
    rfl

/-- Settles O23: OPCODE 0 decodes to NOP, whatever the other bits, and the meaning of NOP is the identity. -/
theorem nopHasNoEffect : Obligations.NopHasNoEffect := by
  unfold Obligations.NopHasNoEffect
  refine ⟨fun s => rfl, fun s w hw hr => ?_⟩
  have hnop : decode w = .nop := decode_of_opcodeOf 0#4 hw
  rw [busAccess_cmd s w hr, writeCmd_of_nop hnop, hnop]
  rfl

/-! ## The command a step runs (R16, R130, R131) -/

theorem step_of_event {s : State} {ev : Event} {rest : List Event} (hl : s.cfg.legal = true) (hev : s.events = ev :: rest) :
    step s = handleEvent ev { s with events := rest } := by
  simp [step, runEvents, hl, hev]

theorem step_of_no_event {s : State} (hl : s.cfg.legal = true) (hev : s.events = []) : step s = controllerTurn s := by
  simp [step, runEvents, hl, hev]

/-- The controller's turn of a BUSY block, with no event pending. -/
theorem step_busy_of_no_event {s : State} (hl : s.cfg.legal = true) (hr : s.rst = false) (hp : s.phase = .busy)
    (hev : s.events = []) : step s = exec s.cmdL.instr s := by
  rw [step_of_no_event hl hev]
  simp [controllerTurn, hr, hp]

theorem controllerTurn_of_idle_or_held {s : State} (h : s.phase = .idle ∨ s.rst = true) : controllerTurn s = .next s := by
  rcases h with hp | hr
  · simp [controllerTurn, hp]
  · simp [controllerTurn, hr]

/-- The host's CMD write, as a step of the machine. -/
theorem step_cmdWrite {s : State} {w : Word} {rest : List Event} (hl : s.cfg.legal = true) (hr : s.rst = false)
    (hev : s.events = cmdWrite s.cfg w :: rest) :
    step s = writeCmd w (respond (.writeResp false) { s with events := rest }) :=
  (step_of_event hl hev).trans (busAccess_cmd { s with events := rest } w hr)

@[simp] theorem tableWord_toNat (w : Word) : tableWord 32 w.toNat = w := by
  simp only [tableWord, Nat.mod_eq_of_lt w.isLt, BitVec.ofNat_toNat, BitVec.setWidth_eq]

/-- A placed command that is no NOP stands accepted (R130). -/
theorem withFetchWord_accepted {s : State} {w : Word} (h : decode w ≠ .nop) (hev : s.events = []) :
    s.withFetchWord 32 w.toNat = { accept w s with rst := false } := by
  simp [State.withFetchWord, placeCommand, h, hev, accept]

/-- Settles O24: a step is its event, and the controller's turn of a BUSY block runs the command in CMD_L. -/
theorem stepRunsDecodedCommand : Obligations.StepRunsDecodedCommand := by
  unfold Obligations.StepRunsDecodedCommand
  refine ⟨?turnEvent, ?turnNoEvent, ?nopWrite, ?placed, fun s a rest hl hev => step_of_event hl hev, ?idleTurn⟩
  case turnEvent =>
    rintro s _ rest hl hr hp rfl hev
    exact step_controller_busy hl hr hp hev
  case turnNoEvent =>
    rintro s _ hl hr hp rfl hev
    exact step_busy_of_no_event hl hr hp hev
  case nopWrite =>
    intro s w rest hl hr hnop hev
    exact (step_cmdWrite hl hr hev).trans (writeCmd_of_nop hnop _)
  case placed =>
    intro s w hl hw hev
    rw [withFetchWord_accepted hw hev]
    exact step_busy_of_no_event (s := { accept w s with rst := false }) hl rfl rfl hev
  case idleTurn =>
    rintro s rest hl hidle (hev | ⟨hev, rfl⟩)
    · exact (step_of_event hl hev).trans (controllerTurn_of_idle_or_held hidle)
    · rw [step_of_no_event hl hev, controllerTurn_of_idle_or_held hidle, ← hev]

/-- Settles O25: the first step accepts the word, and the second runs what it decodes to. -/
theorem acceptThenComplete : Obligations.AcceptThenComplete := by
  unfold Obligations.AcceptThenComplete
  intro s w rest hl hr hp hw
  have haccept := (step_cmdWrite (s := { s with events := cmdWrite s.cfg w :: .controller :: rest }) hl hr rfl).trans
    (writeCmd_of_idle hw hp)
  have hturn := step_controller_busy (rest := rest)
    (s := accept w (respond (.writeResp false) { s with events := .controller :: rest })) hl hr rfl rfl
  rw [accept_instr] at hturn
  obtain ⟨t, ht⟩ := exec_next (decode w) { accept w (respond (.writeResp false) s) with events := rest }
  exact (run_two haccept (hturn.trans ht)).trans ht.symm

/-! ## While a command is BUSY (R133) -/

/-- What the controller's turn can change when it leaves the block BUSY. -/
theorem controllerTurn_busy_frame {s t : State} (h : controllerTurn s = .next t) (ht : t.phase = .busy) :
    t = { s with entReq := t.entReq } := by
  rcases controllerTurn_cases s with ⟨_, hx⟩ | ⟨_, _, hx⟩ <;> rw [hx] at h
  · cases h
    rfl
  · rcases exec_cases h with ⟨_, rfl⟩ | ⟨_, _, rfl⟩ | ⟨_, _, _, _, rfl, _⟩
    · rfl
    · rfl
    · cases ht

/-- What a step from BUSY to BUSY can change: the status flags, the host's enable and response, the entropy port, the level of
the reset input and the pending events. -/
theorem step_busy_frame {s t : State} (hs : s.phase = .busy) (h : step s = .next t) (ht : t.phase = .busy) :
    t = { s with
      rst := t.rst, done := t.done, cmdDropped := t.cmdDropped, doneIe := t.doneIe, entReq := t.entReq
      entData := t.entData, busResp := t.busResp, events := t.events } := by
  obtain ⟨_, ⟨_, hturn⟩ | ⟨ev, rest, _, hx⟩⟩ := step_cases h
  · rw [controllerTurn_busy_frame hturn ht]
  · cases ev with
    | access a => rw [busAccess_busy hx hs]
    | entropy e => rw [entropyAnswer_frame hx]
    | controller => rw [controllerTurn_busy_frame hx ht]
    | reset asserted =>
      cases hx
      cases asserted with
      | true => cases ht
      | false => rfl

/-- Settles O26: nothing that a command reads is among what a step from BUSY to BUSY can change. -/
theorem argumentStability : Obligations.ArgumentStability := by
  unfold Obligations.ArgumentStability
  intro s t hs h ht
  rw [step_busy_frame hs h ht]
  exact ⟨rfl, rfl, rfl, rfl, rfl, rfl, rfl, rfl, rfl, rfl, rfl, rfl, rfl, rfl, rfl⟩

/-! ## Outside a completion (R56, R131) -/

/-- STATE, the working state, RC, the latched fields, the results and the bytes from the output window on are the same. -/
def ResultsKept (s t : State) : Prop :=
  t.lifecycle = s.lifecycle ∧ t.ws = s.ws ∧ t.rc = s.rc ∧ t.ssL = s.ssL ∧ t.mechL = s.mechL ∧ t.tdesL = s.tdesL
  ∧ t.err = s.err ∧ t.result = s.result ∧ ∀ a, 0x10000 ≤ a → Memory.read t.mem a = Memory.read s.mem a

theorem resultsKept_refl (s : State) : ResultsKept s s :=
  ⟨rfl, rfl, rfl, rfl, rfl, rfl, rfl, rfl, fun _ _ => rfl⟩

/-- Bytes stored within an input buffer leave the output buffer (R47, R50). -/
theorem read_inputBytes_out {c : Config} (hlegal : c.legal = true) {b : Buf} (hb : b ≠ .out) {i : Nat} {bs : ByteString}
    (hbs : bs.length ≤ b.size c - i) (m : Memory) {a : Nat} (ha : 0x10000 ≤ a) :
    Memory.read (Memory.writeBytes m (b.base + i) bs) a = Memory.read m a := by
  have hend := Buf.input_end_le hlegal hb
  by_cases hnil : bs = []
  · rw [hnil, Memory.writeBytes_nil]
  · have hpos := List.length_pos_iff.mpr hnil
    exact Memory.read_writeBytes_outside _ _ _ _ (.inr (by omega))

/-- What a bus access does to the memory: it stores within an input buffer, or it leaves it. -/
theorem busAccess_mem_cases {a : BusAccess} {s t : State} (h : busAccess a s = .next t) :
    t.mem = s.mem
    ∨ ∃ (b : Buf) (i : Nat) (bs : ByteString), b ≠ .out ∧ bs.length ≤ b.size s.cfg - i
        ∧ t.mem = Memory.writeBytes s.mem (b.base + i) bs := by
  rcases busAccess_cases a s with ⟨_, hx⟩ | ⟨_, _, hx⟩ | ⟨_, _, hx⟩ <;> rw [hx] at h
  · cases h
  · cases h
    exact .inl rfl
  · rcases performAccess_cases (a.addr - s.cfg.drbgBase) a s with
      ⟨r, hy⟩ | ⟨_, _, w, _, _, _, hy⟩ | ⟨_, _, w, _, _, _, hy⟩ <;> rw [hy] at h
    · cases h
      exact .inl rfl
    · rcases writeCmd_cases w (respond (.writeResp false) s) with ⟨_, hz⟩ | ⟨_, _, hz⟩ | ⟨_, _, hz⟩ <;>
      · cases hz.symm.trans h
        exact .inl rfl
    · cases h
      exact writeTarget_mem_cases w (respond (.writeResp false) s) _

theorem busAccess_resultsKept {a : BusAccess} {s t : State} (hlegal : s.cfg.legal = true) (h : busAccess a s = .next t) :
    ResultsKept s t := by
  have hout : ∀ a, 0x10000 ≤ a → Memory.read t.mem a = Memory.read s.mem a := by
    intro a ha
    rcases busAccess_mem_cases h with hmem | ⟨b, i, bs, hb, hbs, hmem⟩ <;> rw [hmem]
    exact read_inputBytes_out hlegal hb hbs s.mem ha
  rw [busAccess_frame h]
  exact ⟨rfl, rfl, rfl, rfl, rfl, rfl, rfl, rfl, hout⟩

theorem controllerTurn_resultsKept {s t : State} (h : controllerTurn s = .next t) :
    (s.phase = .busy ∧ t.phase = .idle) ∨ ResultsKept s t := by
  rcases controllerTurn_cases s with ⟨_, hx⟩ | ⟨_, hp, hx⟩ <;> rw [hx] at h
  · cases h
    exact .inr (resultsKept_refl s)
  · rcases exec_cases h with ⟨_, rfl⟩ | ⟨_, _, rfl⟩ | ⟨_, _, _, _, rfl, _⟩
    · exact .inr (resultsKept_refl t)
    · exact .inr (resultsKept_refl s)
    · exact .inl ⟨hp, rfl⟩

/-- Settles O29: only a completion and the assertion of reset write the results; an access stores within the input buffers. -/
theorem resultsChangeOnlyAtCompletion : Obligations.ResultsChangeOnlyAtCompletion := by
  unfold Obligations.ResultsChangeOnlyAtCompletion
  intro s t h
  obtain ⟨hl, ⟨_, hturn⟩ | ⟨ev, rest, hev, hx⟩⟩ := step_cases h
  · exact (controllerTurn_resultsKept hturn).imp_right .inr
  · cases ev with
    | access a => exact .inr (.inr (busAccess_resultsKept (s := { s with events := rest }) hl hx))
    | entropy e =>
      rw [entropyAnswer_frame hx]
      exact .inr (.inr (resultsKept_refl s))
    | controller => exact (controllerTurn_resultsKept hx).imp_right .inr
    | reset asserted =>
      cases hx
      cases asserted with
      | true => exact .inr (.inl (by rw [hev]; rfl))
      | false => exact .inr (.inr (resultsKept_refl s))

end Sys2Proof.Machine

/-! PROOF. The commands' whole effects: the reserved opcodes, INSTANTIATE, RESEED, GENERATE with and without prediction
resistance, UNINSTANTIATE, and a run of GENERATEs up to the counter's ceiling (41_commands.md sections 2 to 5). -/

namespace Sys2Proof.Machine

/-! ## Reserved opcodes (R134) -/

theorem exec_of_reserved {i : Instr} (h : 0x5#4 ≤ i.opcode) (s : State) : exec i s = .next (reject .illegalCommand s) := by
  cases i with
  | nop | instantiate | reseed | generate | uninstantiate => simp [Instr.opcode] at h
  | _ => rfl

/-- Settles O32: the listed commands are those of the opcodes from 5 on. -/
theorem reservedOpcodesComplete : Obligations.ReservedOpcodesComplete := by
  unfold Obligations.ReservedOpcodesComplete
  intro s i hi
  have hop : 0x5#4 ≤ i.opcode := by
    revert i
    decide
  exact ⟨_, exec_of_reserved hop s, rfl⟩

/-! ## Success of each command (R140, R145, R150) -/

@[simp] theorem Mech.ofBits_code (m : Mech) : Mech.ofBits m.code = some m := by
  cases m <;> rfl

theorem entropyOK_of_le {e : ByteString} {ss : BitVec 16} (h : ss.toNat ≤ 8 * e.length) : entropyOK e ss = true :=
  (entropyOK_iff e ss).mpr ((ceilDiv_eight_le_iff _ _).mpr h)

theorem exec_instantiate_succeeds {s : State} {m : Mech} {e : ByteString} (hc : instantiateChecks s = .ok m)
    (hd : s.entData = some e) (he : entropyOK e s.secStrength = true) :
    exec .instantiate s = .next (complete .ok 0#32 (instantiateCommit m e s)) := by
  simp [exec, execInstantiate, hc, hd, he]

theorem exec_reseed_succeeds {s : State} {aip : Bool} {e : ByteString} (hc : reseedChecks aip s = none)
    (hd : s.entData = some e) (he : entropyOK e s.ssL = true) :
    exec (.reseed aip) s = .next (complete .ok 0#32 (reseedCommit aip e s)) := by
  simp [exec, execReseed, hc, hd, he]

theorem exec_generate_succeeds {s : State} {aip : Bool} (hc : generateChecks aip s = none) :
    exec (.generate false aip) s = .next (generateDone s.ws s.rc (s.additionalInput aip) s) := by
  simp [exec, execGenerate, hc]

theorem exec_generate_reseeded {s : State} {aip : Bool} {e : ByteString} (hc : generateChecks aip s = none)
    (hd : s.entData = some e) (he : entropyOK e s.ssL = true) :
    exec (.generate true aip) s = .next
      (generateDone (mechReseed s.cfg s.mechL s.tdesL s.ws e (orEmpty (s.additionalInput aip))) 1#64 none s) := by
  simp [exec, execGenerate, hc, hd, he]

/-- A counter past its ceiling is GENERATE's last check (R153, R255). -/
theorem exec_generate_reseedRequired {s : State} (hready : s.lifecycle = .ready)
    (hreq : 8 * s.reqLen.toNat ≤ maxReqBits s.mechL s.tdesL) (hrc : reseedMax s.mechL s.tdesL < s.rc.toNat) (pr : Bool) :
    exec (.generate pr false) s = .next (reject .reseedRequired s) := by
  have hsize : tooLarge s.mechL s.tdesL s.requestBytes = false :=
    Bool.eq_false_iff.mpr fun h => hreq.not_gt ((tooLarge_iff _ _ _).mp h)
  have hdue : s.counterPastCeiling = true := by simpa [State.counterPastCeiling, reseedDue] using hrc
  simp [exec, execGenerate, generateChecks, State.isReady, hready, hsize, hdue]

/-! ## INSTANTIATE and RESEED -/

/-- Settles O33: the hypotheses are INSTANTIATE's checks, and what it commits is R140's effect field by field. -/
theorem instantiateSucceeds : Obligations.InstantiateSucceeds := by
  unfold Obligations.InstantiateSucceeds
  intro s m e hlife hmech hpers hnonce hmax hprim hcap hd he
  have hc := (instantiateChecks_ok_iff s m).mpr ⟨hlife, hmech ▸ m.ofBits_code, hpers, hnonce, hmax, hprim, hcap⟩
  exact ⟨_, exec_instantiate_succeeds hc hd (entropyOK_of_le he), rfl⟩

/-- The additional input that a reseed takes: the empty string for an absent one (R11, R93). -/
theorem orEmpty_additionalInput (s : State) (aip : Bool) :
    orEmpty (s.additionalInput aip) = if aip then Memory.readBytes s.mem 0xC00 s.aiLen.toNat else [] := by
  cases aip <;> rfl

/-- Settles O35: the hypotheses are RESEED's checks, and what it commits is R145's effect field by field. -/
theorem reseedSucceeds : Obligations.ReseedSucceeds := by
  unfold Obligations.ReseedSucceeds
  intro s aip e hready hlen hd he
  have hc := (reseedChecks_none_iff aip s).mpr ⟨hready, hlen⟩
  rw [← orEmpty_additionalInput]
  exact ⟨_, exec_reseed_succeeds hc hd (entropyOK_of_le he), rfl⟩

/-! ## GENERATE -/

section GenerateDone

variable (w : WorkingState) (rc : BitVec 64) (ai : Option ByteString) (s : State)

/-- All fields of GENERATE's completion but the memory and RESULT. -/
theorem generateDone_agreesButPort :
    (generateDone w rc ai s).agreesButPort { s with
      ws := (mechGenerate s.cfg s.mechL s.tdesL w rc.toNat s.reqLen.toNat ai).2, rc := rc + 1#64
      mem := (generateDone w rc ai s).mem, err := .ok, result := (generateDone w rc ai s).result
      phase := .idle, done := true } := rfl

theorem generateDone_mem :
    (generateDone w rc ai s).mem
      = Memory.writeBytes s.mem 0x10000 (mechGenerate s.cfg s.mechL s.tdesL w rc.toNat s.reqLen.toNat ai).1 := rfl

/-- A request within the ceiling has its number of bits in RESULT, without a wrap (R46, R117). -/
theorem generateDone_result_toNat (h : 8 * s.reqLen.toNat ≤ maxReqBits s.mechL s.tdesL) :
    (generateDone w rc ai s).result.toNat = 8 * s.reqLen.toNat := by
  have hmax := maxReqBits_le s.mechL s.tdesL
  have hstd : maxReqBitsStd = 2 ^ 19 := rfl
  have hresult : (generateDone w rc ai s).result = BitVec.ofNat 32 (8 * s.reqLen.toNat) := rfl
  rw [hresult, BitVec.toNat_ofNat]
  omega

/-- The generated bytes stand at the start of the output window (R154). -/
theorem read_generateDone_out (hlegal : s.cfg.legal = true) {k : Nat} (hk : k < s.reqLen.toNat) :
    Memory.read (generateDone w rc ai s).mem (0x10000 + k)
      = (mechGenerate s.cfg s.mechL s.tdesL w rc.toNat s.reqLen.toNat ai).1.getD k 0x00#8 := by
  rw [generateDone_mem]
  exact Memory.read_writeBytes_inside _ _ _ _ (by rwa [mechGenerate_length hlegal])

/-- GENERATE writes no other byte (R154). -/
theorem read_generateDone_outside (hlegal : s.cfg.legal = true) {a : Nat}
    (ha : a < 0x10000 ∨ 0x10000 + s.reqLen.toNat ≤ a) :
    Memory.read (generateDone w rc ai s).mem a = Memory.read s.mem a := by
  rw [generateDone_mem]
  exact Memory.read_writeBytes_outside _ _ _ _ (by rwa [mechGenerate_length hlegal])

end GenerateDone

/-- Settles O37: the hypotheses are GENERATE's checks, and its completion is known field by field and byte by byte. -/
theorem generateSucceeds : Obligations.GenerateSucceeds := by
  unfold Obligations.GenerateSucceeds
  intro s aip hlegal hready hlen hreq hrc
  have hc := (generateChecks_none_iff aip s).mpr ⟨hready, hlen, hreq, hrc⟩
  exact ⟨_, exec_generate_succeeds hc, generateDone_agreesButPort _ _ _ _, generateDone_result_toNat _ _ _ _ hreq,
    counter_succ_toNat hrc, fun k hk => read_generateDone_out _ _ _ _ hlegal hk,
    fun a ha => read_generateDone_outside _ _ _ _ hlegal ha⟩

/-- Settles O38: with PR = 1 the completion is that of a generation from the reseeded state under the counter 1. -/
theorem generatePredictionResistant : Obligations.GeneratePredictionResistant := by
  unfold Obligations.GeneratePredictionResistant
  intro s aip e hlegal hready hlen hreq hrc hd he
  have hc := (generateChecks_none_iff aip s).mpr ⟨hready, hlen, hreq, hrc⟩
  rw [← orEmpty_additionalInput]
  exact ⟨_, exec_generate_reseeded hc hd (entropyOK_of_le he), generateDone_agreesButPort _ 1#64 _ _,
    generateDone_result_toNat _ _ _ _ hreq, fun k hk => read_generateDone_out _ _ _ _ hlegal hk,
    fun a ha => read_generateDone_outside _ _ _ _ hlegal ha⟩

/-! ## GENERATE up to the ceiling (R118, R153) -/

/-- The state `t` after `k` successful GENERATEs from `s`: still READY under the same latched fields and request, with the
counter `k` higher. -/
structure GeneratedTimes (k : Nat) (s t : State) : Prop where
  lifecycle : t.lifecycle = s.lifecycle
  mechL : t.mechL = s.mechL
  tdesL : t.tdesL = s.tdesL
  reqLen : t.reqLen = s.reqLen
  counter : t.rc.toNat = s.rc.toNat + k
  err : s.err = .ok ∨ 0 < k → t.err = .ok

/-- As long as the counter stays within the ceiling before each of them, `k` GENERATEs succeed. -/
theorem execTimes_generate {k : Nat} {s : State} (hready : s.lifecycle = .ready)
    (hreq : 8 * s.reqLen.toNat ≤ maxReqBits s.mechL s.tdesL) (hrc : s.rc.toNat + k ≤ reseedMax s.mechL s.tdesL + 1) :
    ∃ t, execTimes (.generate false false) k s = .next t ∧ GeneratedTimes k s t := by
  induction k generalizing s with
  | zero => exact ⟨s, rfl, rfl, rfl, rfl, rfl, rfl, fun h => h.resolve_right (Nat.lt_irrefl 0)⟩
  | succ k ih =>
    have hceiling : s.rc.toNat ≤ reseedMax s.mechL s.tdesL := by omega
    have hc := (generateChecks_none_iff false s).mpr ⟨hready, nofun, hreq, hceiling⟩
    have hcounter : (generateDone s.ws s.rc none s).rc.toNat = s.rc.toNat + 1 := counter_succ_toNat hceiling
    obtain ⟨t, ht, after⟩ := ih (s := generateDone s.ws s.rc none s) hready hreq
      (by rw [hcounter]; exact (Nat.add_right_comm _ _ _).trans_le hrc)
    refine ⟨t, ?_, after.lifecycle, after.mechL, after.tdesL, after.reqLen, ?_, fun _ => after.err (.inl rfl)⟩
    · rw [execTimes, exec_generate_succeeds hc]
      exact ht
    · rw [after.counter, hcounter]
      omega

/-- Settles O44: from RC = 1 the counter after `k` GENERATEs is `k + 1`, so it is first past the ceiling after RESEED_MAX. -/
theorem ceilingReachedExactly : Obligations.CeilingReachedExactly := by
  unfold Obligations.CeilingReachedExactly
  intro s hready hrc hreq
  have hone : s.rc.toNat = 1 := by rw [hrc]; rfl
  constructor
  · intro k hk
    obtain ⟨t, ht, after⟩ := execTimes_generate (k := k) hready hreq (by omega)
    exact ⟨t, ht, after.lifecycle.trans hready, by rw [after.counter, hone, Nat.add_comm], fun hpos => after.err (.inr hpos)⟩
  · obtain ⟨t, ht, after⟩ := execTimes_generate (k := reseedMax s.mechL s.tdesL) hready hreq (by omega)
    have hpast : reseedMax t.mechL t.tdesL < t.rc.toNat := by
      rw [after.mechL, after.tdesL, after.counter]
      omega
    have hrejected := exec_generate_reseedRequired (after.lifecycle.trans hready)
      (by rwa [after.mechL, after.tdesL, after.reqLen]) hpast false
    exact ⟨t, _, ht, hrejected, rfl⟩

/-! ## UNINSTANTIATE (R44, R160) -/

/-- Settles O39: the commit is R44's zeroization, whose memory is known byte by byte. -/
theorem uninstantiateZeroizes : Obligations.UninstantiateZeroizes := by
  unfold Obligations.UninstantiateZeroizes
  intro s
  exact ⟨_, rfl, rfl, fun a hlo hhi => Memory.read_clearOut s.mem ⟨hlo, hhi⟩,
    fun a ha => Memory.read_clearOut_outside s.mem ha⟩

end Sys2Proof.Machine

/-! PROOF. The mechanisms' functions in closed form: each block of a loop by its index (42_hash_drbg.md R170 to R177;
43_hmac_drbg.md R191 to R193; 44_ctr_drbg.md R211 to R218). -/

namespace Sys2Proof.Machine

/-! ## Blocks by their index (R112) -/

/-- `f 0 ‖ f 1 ‖ …`, as many blocks of `each` bytes as cover `total` bytes. -/
def blocks (total each : Nat) (f : Nat → ByteString) : ByteString := (List.range (ceilDiv total each)).flatMap f

/-- The first block apart from the others. -/
theorem range_succ_flatMap (k : Nat) (f : Nat → ByteString) :
    (List.range (k + 1)).flatMap f = f 0 ++ (List.range k).flatMap fun j => f (j + 1) := by
  rw [List.range_succ_eq_map, List.flatMap_cons, List.flatMap_map]

/-- `V + j` in the width of `V`: `V` after `j` increments. -/
def incBy (V : ByteString) (j : Nat) : ByteString := beBytes (beInt V + j) V.length

@[simp] theorem incBy_zero (V : ByteString) : incBy V 0 = V := beBytes_beInt V

/-- Incrementing first or last makes no difference: an overflow is dropped either way. -/
@[simp] theorem incBy_inc (V : ByteString) (j : Nat) : incBy (inc V) j = incBy V (j + 1) :=
  eq_of_beInt_eq (by simp [incBy]) (by simp [incBy, beInt_inc, Nat.add_assoc, Nat.add_comm 1 j])

theorem incBy_one (V : ByteString) : incBy V 1 = inc V := by
  rw [← incBy_inc, incBy_zero]

/-! ## Hash_DRBG -/

theorem hashDfRounds_eq (p : Prims) (x : ByteString) (nb k i : Nat) :
    hashDfRounds p x nb k i = (List.range k).flatMap fun j => p.H ([BitVec.ofNat 8 (i + j)] ++ enc32 nb ++ x) := by
  induction k generalizing i with
  | zero => rfl
  | succ k ih =>
    have hcounter : beBytes i 1 = [BitVec.ofNat 8 i] := by simp [beBytes]
    rw [hashDfRounds, ih, range_succ_flatMap, hcounter]
    simp only [Nat.add_zero, Nat.add_assoc, Nat.add_comm 1]

/-- R170. -/
theorem hashDf_eq (p : Prims) (c : Config) (x : ByteString) (nb : Nat) :
    hashDf p c x nb = leftBits (blocks nb (8 * c.hlen) fun i => p.H ([BitVec.ofNat 8 (i + 1)] ++ enc32 nb ++ x)) nb := by
  simp only [hashDf, hashDfRounds_eq, blocks, Nat.add_comm 1]

theorem hashgenRounds_eq (p : Prims) (k : Nat) (V : ByteString) :
    hashgenRounds p k V = (List.range k).flatMap fun j => p.H (incBy V j) := by
  induction k generalizing V with
  | zero => rfl
  | succ k ih => rw [hashgenRounds, ih, range_succ_flatMap, incBy_zero]; simp only [incBy_inc]

/-- R172. -/
theorem hashgen_eq (p : Prims) (c : Config) (V : ByteString) (n : Nat) :
    hashgen p c V n = (blocks n c.hlen fun j => p.H (incBy V j)).take n := by
  rw [hashgen, hashgenRounds_eq]
  rfl

/-- R175's final addition: one sum, the counter's low 32 bits (R177). -/
theorem beAdd_final (V h C : ByteString) (rc : Nat) :
    beAdd V [h, C, enc32 rc] = beBytes (beInt V + beInt h + beInt C + rc % 2 ^ 32) V.length := by
  simp [beAdd, enc32, Nat.add_assoc]

theorem beAdd_single (a b : ByteString) : beAdd a [b] = beBytes (beInt a + beInt b) a.length := by
  simp [beAdd]

/-- R175, R177, from the `V` after the additional input. -/
theorem hashGenerate_eq (p : Prims) (c : Config) (ws : WorkingState) (rc n : Nat) (ai : Option ByteString)
    {V : ByteString} (hV : hashAbsorb p ws.V ai = V) :
    hashGenerate p c ws rc n ai = ((blocks n c.hlen fun j => p.H (incBy V j)).take n,
      ⟨beBytes (beInt V + beInt (p.H (hashPrefixFinal :: V)) + beInt ws.C + rc % 2 ^ 32) V.length, ws.C, [], []⟩) := by
  rw [hashGenerate, hV, hashgen_eq, beAdd_final]

/-! ## HMAC_DRBG -/

/-- R193. -/
theorem hmacOutput_eq (p : Prims) (K : ByteString) (k : Nat) (V : ByteString) :
    hmacOutput p K k V = ((List.range k).flatMap fun j => (p.M K)^[j + 1] V, (p.M K)^[k] V) := by
  induction k generalizing V with
  | zero => rfl
  | succ k ih => rw [hmacOutput, ih, range_succ_flatMap]; rfl

/-- R193, from the (K, V) after the additional input. -/
theorem hmacGenerate_eq (p : Prims) (c : Config) (ws : WorkingState) (n : Nat) (ai : Option ByteString)
    {kv : ByteString × ByteString} (hkv : hmacAbsorb p (ws.K, ws.V) ai = kv) :
    hmacGenerate p c ws n ai = ((blocks n c.mlen fun j => (p.M kv.1)^[j + 1] kv.2).take n,
      hmacState (hmacUpdate p (kv.1, (p.M kv.1)^[ceilDiv n c.mlen] kv.2) ai)) := by
  rw [hmacGenerate, hkv, hmacOutput_eq]
  rfl

/-! ## CTR_DRBG -/

theorem bccRounds_eq (p : Prims) (tdes : Bool) (blen : Nat) (key : ByteString) (k : Nat) (cv data : ByteString) :
    bccRounds p tdes blen key k cv data
      = (List.range k).foldl (fun cv i => enc p tdes key (xorBytes cv ((data.drop (i * blen)).take blen))) cv := by
  induction k generalizing cv data with
  | zero => rfl
  | succ k ih =>
    rw [bccRounds, ih, List.range_succ_eq_map, List.foldl_cons, List.foldl_map]
    simp only [List.drop_drop, Nat.zero_mul, List.drop_zero, Nat.succ_mul, Nat.add_comm blen]

/-- R212. -/
theorem bcc_eq (p : Prims) (c : Config) (tdes : Bool) (key iv data : ByteString) :
    bcc p c tdes key iv data
      = (List.range (data.length / c.blen)).foldl
          (fun cv i => enc p tdes key (xorBytes cv ((data.drop (i * c.blen)).take c.blen))) (enc p tdes key iv) :=
  bccRounds_eq _ _ _ _ _ _ _

theorem dfBccRounds_eq (p : Prims) (c : Config) (tdes : Bool) (K0 S : ByteString) (k i : Nat) :
    dfBccRounds p c tdes K0 S k i
      = (List.range k).flatMap fun j => bcc p c tdes K0 (enc32 (i + j) ++ zeros (c.blen - 4)) S := by
  induction k generalizing i with
  | zero => rfl
  | succ k ih =>
    rw [dfBccRounds, ih, range_succ_flatMap]
    simp only [Nat.add_zero, Nat.add_assoc, Nat.add_comm 1]

theorem dfStretch_eq (p : Prims) (tdes : Bool) (K : ByteString) (k : Nat) (X : ByteString) :
    dfStretch p tdes K k X = (List.range k).flatMap fun j => (enc p tdes K)^[j + 1] X := by
  induction k generalizing X with
  | zero => rfl
  | succ k ih => rw [dfStretch, ih, range_succ_flatMap]; rfl

/-- R213, the BCC outputs that give `K` and `X`. -/
def dfSeed (p : Prims) (c : Config) (tdes : Bool) (S : ByteString) : ByteString :=
  blocks c.sl c.blen fun i => bcc p c tdes (leftBytes dfKeySequence c.klen) (enc32 i ++ zeros (c.blen - 4)) S

/-- R213, for a whole number of bytes. -/
theorem blockCipherDf_eq (p : Prims) (c : Config) (tdes : Bool) (x : ByteString) (N : Nat) :
    blockCipherDf p c tdes x (8 * N)
      = (blocks N c.blen fun j => (enc p tdes ((dfSeed p c tdes (dfInput c x N)).take c.klen))^[j + 1]
          (((dfSeed p c tdes (dfInput c x N)).drop c.klen).take c.blen)).take N := by
  have hbytes : 8 * N / 8 = N := by omega
  simp only [blockCipherDf, hbytes, dfBccRounds_eq, dfStretch_eq, Nat.zero_add]
  rfl

/-- R214, R217. -/
theorem ctrStream_eq (p : Prims) (tdes : Bool) (Key : ByteString) (k : Nat) (V : ByteString) :
    ctrStream p tdes Key k V = ((List.range k).flatMap fun j => enc p tdes Key (incBy V (j + 1)), incBy V k) := by
  induction k generalizing V with
  | zero => rw [incBy_zero]; rfl
  | succ k ih => rw [ctrStream, ih, range_succ_flatMap, Nat.zero_add, incBy_one]; simp only [incBy_inc]

/-- R214. -/
theorem ctrUpdate_eq (p : Prims) (c : Config) (tdes : Bool) (seed : ByteString) (kv : ByteString × ByteString) :
    ctrUpdate p c tdes seed kv
      = ((xorBytes ((blocks c.sl c.blen fun j => enc p tdes kv.1 (incBy kv.2 (j + 1))).take c.sl) seed).take c.klen,
        (xorBytes ((blocks c.sl c.blen fun j => enc p tdes kv.1 (incBy kv.2 (j + 1))).take c.sl) seed).drop c.klen) := by
  rw [ctrUpdate, ctrStream_eq]
  rfl

/-- R217, R218, from the string of the final update and the (Key, V) after the additional input. -/
theorem ctrGenerate_eq (p : Prims) (c : Config) (tdes : Bool) (ws : WorkingState) (n : Nat) (ai : Option ByteString)
    {a2 : ByteString} {kv : ByteString × ByteString} (ha : ctrAbsorb p c tdes (ws.Key, ws.V) ai = (a2, kv)) :
    ctrGenerate p c tdes ws n ai = ((blocks n c.blen fun j => enc p tdes kv.1 (incBy kv.2 (j + 1))).take n,
      ctrState (ctrUpdate p c tdes a2 (kv.1, incBy kv.2 (ceilDiv n c.blen)))) := by
  rw [ctrGenerate, ha, ctrStream_eq]
  rfl

/-! ## The three mechanisms -/

/-- Settles O60: each of the statement's closed forms is the closed form of one function of the model, and every clause is the
model's composition of those functions. -/
theorem mechanismsFollowTheirRules : Obligations.MechanismsFollowTheirRules := by
  unfold Obligations.MechanismsFollowTheirRules
  intro c td ws e nonce pers x rc n H M concat plus df seeded hashFrom keyed hmacFrom E xor chain cipherDf update cipherState
    ctrFrom
  have hdf (y : ByteString) (nb : Nat) : hashDf c.prims c y nb = df y nb := hashDf_eq _ _ _ _
  have hseeded (V : ByteString) : hashSeeded c.prims c V = seeded V := by rw [hashSeeded, hdf]; rfl
  have hchain (t : Bool) (k iv data : ByteString) : bcc c.prims c t k iv data = chain t k iv data := bcc_eq _ _ _ _ _ _
  have hcipherDf (t : Bool) (y : ByteString) (N : Nat) : blockCipherDf c.prims c t y (8 * N) = cipherDf t y N := by
    simp only [blockCipherDf_eq, dfSeed, hchain]
    rfl
  have hupdate (t : Bool) (seed : ByteString) (kv : ByteString × ByteString) :
      ctrUpdate c.prims c t seed kv = update t seed kv := ctrUpdate_eq _ _ _ _ _
  have hctr {ai : Option ByteString} {a2 : ByteString} {kv : ByteString × ByteString}
      (ha : ctrAbsorb c.prims c td (ws.Key, ws.V) ai = (a2, kv)) : mechGenerate c .ctr td ws rc n ai = ctrFrom kv a2 :=
    (ctrGenerate_eq _ _ _ _ _ _ ha).trans (by rw [hupdate]; rfl)
  refine ⟨?_, ?_, hashGenerate_eq _ _ _ _ _ _ rfl, hashGenerate_eq _ _ _ _ _ _ (beAdd_single _ _), rfl, rfl,
    hmacGenerate_eq _ _ _ _ _ rfl, hmacGenerate_eq _ _ _ _ _ rfl, ?_, ?_, hctr rfl, hctr ?_⟩
  · rw [mechInstantiate, hashInstantiate, hseeded, hdf]
  · rw [mechReseed, hashReseed, hseeded, hdf]; rfl
  · rw [mechInstantiate, ctrInstantiate, hcipherDf, hupdate]; rfl
  · rw [mechReseed, ctrReseed, hcipherDf, hupdate]; rfl
  · rw [ctrAbsorb, hcipherDf, hupdate]; rfl

end Sys2Proof.Machine

/-! PROOF. Hash_DRBG's counter term (42_hash_drbg.md R177). -/

namespace Sys2Proof.Machine

/-- `enc32` drops the bits from 32 on (R110). -/
theorem beInt_enc32 (v : Nat) : beInt (enc32 v) = v % 2 ^ 32 := beInt_beBytes v 4

/-- A generate sees its counter only through the final addition. -/
theorem hashGenerate_counter_mod (p : Prims) (c : Config) (ws : WorkingState) (rc n : Nat) (ai : Option ByteString) :
    hashGenerate p c ws (rc % 2 ^ 32) n ai = hashGenerate p c ws rc n ai := by
  simp only [hashGenerate_eq p c ws _ n ai rfl, Nat.mod_mod]

/-- R175's final addition by its value, without additional input. -/
theorem beInt_hashGenerate_V (p : Prims) (c : Config) (ws : WorkingState) (rc n : Nat) :
    beInt (hashGenerate p c ws rc n none).2.V
      = (beInt ws.V + beInt (p.H (hashPrefixFinal :: ws.V)) + beInt ws.C + rc % 2 ^ 32) % 256 ^ ws.V.length := by
  have habsorb : hashAbsorb p ws.V none = ws.V := rfl
  rw [hashGenerate_eq p c ws rc n none habsorb, beInt_beBytes]

/-- Settles O53: the counter enters a generate only as `rc % 2 ^ 32` in the sum that gives the new `V`. -/
theorem hashCounterTermIs32Bits : Obligations.HashCounterTermIs32Bits := by
  unfold Obligations.HashCounterTermIs32Bits
  refine ⟨beInt_enc32, fun p c ws rc n ai => ⟨?sameGenerate, ?keepsC, ?newV⟩⟩
  case sameGenerate => exact (hashGenerate_counter_mod p c ws rc n ai).symm
  case keepsC => rfl
  case newV => exact beInt_hashGenerate_V p c ws rc n

end Sys2Proof.Machine

/-! PROOF. HMAC_DRBG's Update (43_hmac_drbg.md R190; 90_conflicts.md C2). -/

namespace Sys2Proof.Machine

/-- One pass of R190, its MAC input a concatenation as the spec writes it. -/
theorem hmacPass_eq (p : Prims) (domain : Byte) (K V s : ByteString) :
    hmacPass p domain (K, V) s = (p.M K (V ++ [domain] ++ s), p.M (p.M K (V ++ [domain] ++ s)) V) := by
  rw [hmacPass, List.append_cons]

/-- R190: absent seed material enters the first pass as the empty string, and there is no second pass. -/
theorem hmacUpdate_absent (p : Prims) (kv : ByteString × ByteString) :
    hmacUpdate p kv none = hmacPass p hmacDomain0 kv [] := rfl

/-- R190: present seed material, whatever its length, enters both passes. -/
theorem hmacUpdate_present (p : Prims) (kv : ByteString × ByteString) (s : ByteString) :
    hmacUpdate p kv (some s) = hmacPass p hmacDomain1 (hmacPass p hmacDomain0 kv s) s := rfl

/-- Settles O54: the constructor of the seed material alone decides between one pass and two. -/
theorem hmacUpdatePasses : Obligations.HmacUpdatePasses := by
  unfold Obligations.HmacUpdatePasses
  refine fun p K V s => ⟨?absent, ?present⟩
  case absent => exact (hmacUpdate_absent p (K, V)).trans (hmacPass_eq p hmacDomain0 K V [])
  case present => rw [hmacUpdate_present, hmacPass_eq p hmacDomain0, hmacPass_eq p hmacDomain1]; rfl

end Sys2Proof.Machine

/-! PROOF. The triple-DES key expansion (44_ctr_drbg.md R210). -/

namespace Sys2Proof.Machine

/-! ## One key byte -/

theorem parityByte_getLsbD_zero (b7 : Nat) : (parityByte b7).getLsbD 0 = decide (popcount7 b7 % 2 = 0) := by
  simp only [parityByte, BitVec.getLsbD_ofNat, Nat.testBit_zero]
  split <;> simp_all

theorem parityByte_getLsbD_succ (b7 : Nat) {i : Nat} (hi : i < 7) : (parityByte b7).getLsbD (i + 1) = b7.testBit i := by
  have hhalf (p : Nat) (hp : p < 2) : (2 * b7 + p) / 2 = b7 := by omega
  have hparity : (if popcount7 b7 % 2 = 0 then 1 else 0) < 2 := by split <;> decide
  have hinside : i + 1 < 8 := by omega
  rw [parityByte, BitVec.getLsbD_ofNat, Nat.testBit_succ, hhalf _ hparity, decide_eq_true hinside, Bool.true_and]

/-- Above its parity bit, a key byte has the 1 bits of its seven key bits. -/
theorem parityByte_high_bits (b7 : Nat) :
    ((List.range 7).filter fun i => (parityByte b7).getLsbD (i + 1)).length = popcount7 b7 := by
  rw [popcount7, List.filter_congr fun i hi => parityByte_getLsbD_succ b7 (List.mem_range.mp hi)]

/-- The parity bit makes the number of 1 bits odd, whatever the key bits. -/
theorem parityByte_odd (b7 : Nat) : ((List.range 8).filter fun i => (parityByte b7).getLsbD i).length % 2 = 1 := by
  have hhigh := parityByte_high_bits b7
  rw [List.range_succ_eq_map, List.filter_cons, List.filter_map, parityByte_getLsbD_zero]
  by_cases heven : popcount7 b7 % 2 = 0 <;> simp [heven, Function.comp_def, hhigh] <;> omega

theorem parityByte_toNat_half (b7 : Nat) : (parityByte b7).toNat / 2 = b7 % 128 := by
  simp only [parityByte, BitVec.toNat_ofNat]
  split <;> omega

/-! ## The expansion -/

@[simp] theorem expandSegment_length (seg : ByteString) : (expandSegment seg).length = 8 := by simp [expandSegment]

theorem expandSegment_getElem? (seg : ByteString) {j : Nat} (hj : j < 8) :
    (expandSegment seg)[j]? = some (parityByte ((beInt seg >>> (49 - 7 * j)) &&& 0x7F)) := by
  simp [expandSegment, hj]

theorem expandTdea_length (k : ByteString) : (expandTdea k).length = 24 := by
  simp [expandTdea]

/-- In a concatenation of blocks of `len` bytes, byte `len * s + j` is byte `j` of block `s`. -/
theorem flatMap_range_getElem? {f : Nat → ByteString} {len : Nat} (hlen : ∀ i, (f i).length = len) {n s j : Nat}
    (hs : s < n) (hj : j < len) : ((List.range n).flatMap f)[len * s + j]? = (f s)[j]? := by
  induction s generalizing f n with
  | zero =>
    obtain ⟨m, rfl⟩ := Nat.exists_eq_add_one.mpr hs
    rw [range_succ_flatMap, Nat.mul_zero, Nat.zero_add, List.getElem?_append_left (by rwa [hlen])]
  | succ s ih =>
    obtain ⟨m, rfl⟩ := Nat.exists_eq_add_one.mpr (Nat.zero_lt_of_lt hs)
    have hskip : len * (s + 1) + j = len + (len * s + j) := by rw [Nat.mul_succ]; omega
    rw [range_succ_flatMap, hskip, List.getElem?_append_right (by rw [hlen]; omega), hlen, Nat.add_sub_cancel_left,
      ih (fun i => hlen (i + 1)) (Nat.lt_of_succ_lt_succ hs)]

/-- Every byte of the expansion is a key byte made by R210's rule for the parity. -/
theorem mem_expandTdea {k : ByteString} {x : Byte} (h : x ∈ expandTdea k) : ∃ b7, x = parityByte b7 := by
  simp only [expandTdea, expandSegment, List.mem_flatMap, List.mem_map] at h
  obtain ⟨_, _, _, _, hx⟩ := h
  exact ⟨_, hx.symm⟩

theorem expandTdea_getD (k : ByteString) {s j : Nat} (hs : s < 3) (hj : j < 8) (d : Byte) :
    (expandTdea k).getD (8 * s + j) d = parityByte ((beInt ((k.drop (7 * s)).take 7) >>> (49 - 7 * j)) &&& 0x7F) := by
  rw [List.getD_eq_getElem?_getD, expandTdea, flatMap_range_getElem? (fun _ => expandSegment_length _) hs hj,
    expandSegment_getElem? _ hj, Option.getD_some]

/-- The seven bits of a number above its low `n`. -/
theorem shiftRight_and_7F (v n : Nat) : (v >>> n) &&& 0x7F = v / 2 ^ n % 128 := by
  rw [Nat.shiftRight_eq_div_pow]
  exact Nat.and_two_pow_sub_one_eq_mod _ 7

/-- Settles O55: each byte of the expansion is a `parityByte`, and its place gives the seven bits it is made of. -/
theorem tdeaExpansionHasOddParity : Obligations.TdeaExpansionHasOddParity := by
  unfold Obligations.TdeaExpansionHasOddParity
  refine fun k _ => ⟨expandTdea_length k, fun x hx => ?oddParity, fun s j hs hj => ?keyBits⟩
  case oddParity =>
    obtain ⟨b7, rfl⟩ := mem_expandTdea hx
    exact parityByte_odd b7
  case keyBits => rw [expandTdea_getD k hs hj, parityByte_toNat_half, shiftRight_and_7F, Nat.mod_mod]

end Sys2Proof.Machine

/-! PROOF. The padding of Block_Cipher_df's input (44_ctr_drbg.md R213). -/

namespace Sys2Proof.Machine

/-- The padding reaches the next multiple of `b`. -/
theorem add_padding_mod (len b : Nat) (hb : 0 < b) : (len + (b - len % b) % b) % b = 0 := by
  have hle : len % b ≤ b := Nat.le_of_lt (Nat.mod_lt len hb)
  calc (len + (b - len % b) % b) % b
      = (len % b + (b - len % b)) % b := by rw [Nat.add_mod_mod, Nat.mod_add_mod]
    _ = 0 := by rw [Nat.add_sub_cancel' hle, Nat.mod_self]

theorem padTo_length_mod {b : Nat} (hb : 0 < b) (x : ByteString) : (padTo b x).length % b = 0 := by
  simpa [padTo] using add_padding_mod x.length b hb

/-- Settles O56: the padding of R213 is a remainder modulo BLEN, so it is shorter than a block. -/
theorem derivationInputIsPadded : Obligations.DerivationInputIsPadded := by
  unfold Obligations.DerivationInputIsPadded
  intro c x N hlegal
  have hpos : 0 < c.blen := legal_blen_pos hlegal
  exact ⟨_, Nat.mod_lt _ hpos, rfl, padTo_length_mod hpos _⟩

end Sys2Proof.Machine

/-! PROOF. Errors and refusals: a bus access of a wrong shape, the first failing check of a command, a short fetch, the
CMD_DROPPED flag, and why no event that the block can meet stops it (60_exceptions.md). -/

namespace Sys2Proof.Machine

/-! ## Bus errors (R253) -/

theorem inSpace_iff (c : Config) (addr : Nat) :
    inSpace c addr = true ↔ c.drbgBase ≤ addr ∧ addr < c.drbgBase + spaceBytes := by
  simp [inSpace]

theorem wellShaped_iff (c : Config) (a : BusAccess) :
    wellShaped c a = true ↔ a.width = 4 ∧ (a.addr - c.drbgBase) % 4 = 0 := by
  simp [wellShaped]

/-- Settles O9: of what an access can do, one of a wrong shape in the block's space is only answered. -/
theorem busErrorHasNoEffect : Obligations.BusErrorHasNoEffect := by
  unfold Obligations.BusErrorHasNoEffect
  intro s a hspace hshape
  have hx : busAccess a s = .next (respond a.errorResponse s) := by
    rcases busAccess_cases a s with ⟨hout, _⟩ | ⟨_, _, hx⟩ | ⟨_, hwell, _⟩
    · rw [hspace] at hout
      cases hout
    · exact hx
    · obtain ⟨hwidth, halign⟩ := (wellShaped_iff _ _).mp hwell
      exact (hshape.elim (· hwidth) (· halign)).elim
  refine ⟨_, hx, rfl, ?_⟩
  cases a with
  | read addr w => exact .inl ⟨addr, w, rfl, rfl⟩
  | write addr w v => exact .inr ⟨addr, w, v, rfl, rfl⟩

/-! ## What the events keep -/

/-- A command changes neither the configuration nor the pending events (R272; log 1), nor CMD_DROPPED (R131, R252). -/
theorem exec_keeps {i : Instr} {s t : State} (h : exec i s = .next t) :
    t.cfg = s.cfg ∧ t.events = s.events ∧ t.cmdDropped = s.cmdDropped := by
  rcases exec_cases h with ⟨_, rfl⟩ | ⟨_, _, rfl⟩ | ⟨_, code, result, u, rfl, hu, _⟩
  · exact ⟨rfl, rfl, rfl⟩
  · exact ⟨rfl, rfl, rfl⟩
  · rw [hu]
    exact ⟨rfl, rfl, rfl⟩

theorem controllerTurn_keeps {s t : State} (h : controllerTurn s = .next t) :
    t.cfg = s.cfg ∧ t.events = s.events ∧ t.cmdDropped = s.cmdDropped := by
  rcases controllerTurn_cases s with ⟨_, hx⟩ | ⟨_, _, hx⟩ <;> rw [hx] at h
  · cases h
    exact ⟨rfl, rfl, rfl⟩
  · exact exec_keeps h

/-- No event changes the configuration or the events still pending (R272; log 1). -/
theorem handleEvent_keeps {ev : Event} {s t : State} (h : handleEvent ev s = .next t) :
    t.cfg = s.cfg ∧ t.events = s.events := by
  cases ev with
  | access a =>
    rw [busAccess_frame h]
    exact ⟨rfl, rfl⟩
  | entropy e =>
    rw [entropyAnswer_frame h]
    exact ⟨rfl, rfl⟩
  | controller =>
    obtain ⟨hcfg, hevents, _⟩ := controllerTurn_keeps h
    exact ⟨hcfg, hevents⟩
  | reset asserted =>
    cases h
    cases asserted <;> exact ⟨rfl, rfl⟩

/-! ## No stop (R256) -/

theorem writeCmd_next (w : Word) (s : State) : ∃ t, writeCmd w s = .next t := by
  rcases writeCmd_cases w s with ⟨_, h⟩ | ⟨_, _, h⟩ | ⟨_, _, h⟩ <;> exact ⟨_, h⟩

theorem performAccess_next (off : Nat) (a : BusAccess) (s : State) : ∃ t, performAccess off a s = .next t := by
  rcases performAccess_cases off a s with ⟨r, h⟩ | ⟨_, _, w, _, _, _, h⟩ | ⟨_, _, w, _, _, _, h⟩
  · exact ⟨_, h⟩
  · rw [h]
    exact writeCmd_next w _
  · exact ⟨_, h⟩

/-- An access that reaches the block is answered (R71). -/
theorem busAccess_next {a : BusAccess} {s : State} (h : inSpace s.cfg a.addr = true) : ∃ t, busAccess a s = .next t := by
  rcases busAccess_cases a s with ⟨hout, _⟩ | ⟨_, _, hx⟩ | ⟨_, _, hx⟩
  · rw [h] at hout
    cases hout
  · exact ⟨_, hx⟩
  · rw [hx]
    exact performAccess_next _ a s

/-- An answer that the port can deliver is taken or ignored (R60, R271). -/
theorem entropyAnswer_next {e : ByteString} {s : State} (h : e.length ≤ s.cfg.entMaxBytes) :
    ∃ t, entropyAnswer e s = .next t := by
  rcases entropyAnswer_cases e s with ⟨hlong, _⟩ | ⟨_, _, _, hx⟩ | ⟨_, _, hx⟩
  · exact absurd h hlong.not_ge
  · exact ⟨_, hx⟩
  · exact ⟨_, hx⟩

theorem controllerTurn_next (s : State) : ∃ t, controllerTurn s = .next t := by
  rcases controllerTurn_cases s with ⟨_, hx⟩ | ⟨_, _, hx⟩
  · exact ⟨_, hx⟩
  · rw [hx]
    exact exec_next _ s

theorem handleEvent_next {ev : Event} {s : State} (h : ev.admissible s.cfg = true) : ∃ t, handleEvent ev s = .next t := by
  cases ev with
  | access a => exact busAccess_next h
  | entropy e => exact entropyAnswer_next (by simpa [Event.admissible] using h)
  | controller => exact controllerTurn_next s
  | reset asserted => exact ⟨_, rfl⟩

/-- Progress and preservation: the step takes the first event, and the others stay admissible under the same configuration. -/
theorem step_safe {s : State} (hs : s.safe) : ∃ t, step s = .next t ∧ t.safe := by
  obtain ⟨hlegal, hadmissible⟩ := hs
  cases hev : s.events with
  | nil =>
    obtain ⟨t, hx⟩ := controllerTurn_next s
    obtain ⟨hcfg, hevents, _⟩ := controllerTurn_keeps hx
    refine ⟨t, (step_of_no_event hlegal hev).trans hx, hcfg ▸ hlegal, ?_⟩
    rw [hcfg, hevents]
    exact hadmissible
  | cons ev rest =>
    rw [hev] at hadmissible
    obtain ⟨hfirst, hrest⟩ := List.forall_mem_cons.mp hadmissible
    obtain ⟨t, hx⟩ := handleEvent_next (s := { s with events := rest }) hfirst
    obtain ⟨hcfg, hevents⟩ := handleEvent_keeps hx
    refine ⟨t, (step_of_event hlegal hev).trans hx, hcfg ▸ hlegal, ?_⟩
    rw [hcfg, hevents]
    exact hrest

theorem run_succ {s u : State} (h : step s = .next u) (k : Nat) :
    Host.Core.run Sys2Proof.core (k + 1) s = Host.Core.run Sys2Proof.core k u := by
  simp [Host.Core.run, Sys2Proof.core, h]

/-- Settles O59, by induction on the number of steps. -/
theorem safeRunNeverStops : Obligations.SafeRunNeverStops := by
  unfold Obligations.SafeRunNeverStops
  intro k
  induction k with
  | zero => exact fun s hs => ⟨s, rfl, hs⟩
  | succ k ih =>
    intro s hs
    obtain ⟨u, hstep, hu⟩ := step_safe hs
    rw [run_succ hstep]
    exact ih u hu

/-! ## CMD_DROPPED (R252) -/

/-- Only a register's own offset reaches it (R47). -/
theorem offset_of_targetOf {off : Nat} {r : Reg} (h : targetOf off = .reg r) : off = r.offset := by
  unfold targetOf at h
  split at h
  · split at h
    · next hr =>
      cases h
      have hoffset : (r.offset == off) = true := List.find?_some (p := fun r : Reg => r.offset == off) hr
      exact (beq_iff_eq.mp hoffset).symm
    · cases h
  · (repeat' split at h) <;> cases h

theorem writeReg_cmdDropped (v : Word) (s : State) {r : Reg} (hr : r ≠ .status) :
    (writeReg v s r).cmdDropped = s.cmdDropped := by
  cases r with
  | status => exact absurd rfl hr
  | config | secStrength | reqLen | aiLen | persLen | nonceLen => exact whenIdle_field State.cmdDropped rfl
  | _ => rfl

theorem writeTarget_cmdDropped (v : Word) (s : State) {tg : Target} (htg : tg ≠ .reg .status) :
    (writeTarget v s tg).cmdDropped = s.cmdDropped := by
  cases tg with
  | reg r => exact writeReg_cmdDropped v s fun hr => htg (congrArg Target.reg hr)
  | window b i =>
    cases b with
    | out => rfl
    | _ => exact whenIdle_field State.cmdDropped rfl
  | reserved => rfl

/-- A write of CMD may set the flag and never clears it (R130). -/
theorem writeCmd_cmdDropped {w : Word} {s t : State} (hd : s.cmdDropped = true) (h : writeCmd w s = .next t) :
    t.cmdDropped = true := by
  rcases writeCmd_cases w s with ⟨_, hx⟩ | ⟨_, _, hx⟩ | ⟨_, _, hx⟩ <;> cases hx.symm.trans h
  · exact hd
  · rfl
  · exact hd

/-- An access that clears the flag is a write of STATUS with bit 12. -/
theorem performAccess_cmdDropped {off : Nat} {a : BusAccess} {s t : State} (hd : s.cmdDropped = true)
    (h : performAccess off a s = .next t) :
    t.cmdDropped = true ∨ ∃ addr width v, a = .write addr width v ∧ off = 0x010 ∧ v.getLsbD 12 = true := by
  rcases performAccess_cases off a s with ⟨r, hx⟩ | ⟨_, _, w, _, _, _, hx⟩ | ⟨addr, width, v, ha, _, _, hx⟩ <;> rw [hx] at h
  · cases h
    exact .inl hd
  · exact .inl (writeCmd_cmdDropped (s := respond (.writeResp false) s) hd h)
  · cases h
    by_cases htg : targetOf off = .reg .status
    · cases hv : v.getLsbD 12 with
      | true => exact .inr ⟨addr, width, v, ha, offset_of_targetOf htg, hv⟩
      | false =>
        rw [htg]
        exact .inl ((writeStatus_cmdDropped v _).trans (by rw [respond_cmdDropped, hd, hv]; rfl))
    · exact .inl ((writeTarget_cmdDropped v _ htg).trans hd)

/-- The same with the address and the width, which the block checks before it performs the access (R71, R72). -/
theorem busAccess_cmdDropped {a : BusAccess} {s t : State} (hd : s.cmdDropped = true) (h : busAccess a s = .next t) :
    t.cmdDropped = true ∨ ∃ v : Word, v.getLsbD 12 = true ∧ a = .write (s.cfg.drbgBase + 0x010) 4 v := by
  rcases busAccess_cases a s with ⟨_, hx⟩ | ⟨_, _, hx⟩ | ⟨hspace, hshape, hx⟩ <;> rw [hx] at h
  · cases h
  · cases h
    exact .inl hd
  · refine (performAccess_cmdDropped hd h).imp_right ?_
    rintro ⟨addr, width, v, rfl, hoff, hv⟩
    obtain ⟨hbase, _⟩ := (inSpace_iff _ _).mp hspace
    obtain ⟨rfl : width = 4, _⟩ := (wellShaped_iff _ _).mp hshape
    have haddr : addr = s.cfg.drbgBase + 0x010 := (Nat.sub_eq_iff_eq_add' hbase).mp hoff
    exact ⟨v, hv, by rw [haddr]⟩

/-- Settles O28: neither a command, an entropy answer nor a release of reset writes the flag; an access clears it by a STATUS
write with bit 12 only. -/
theorem droppedFlagStays : Obligations.DroppedFlagStays := by
  unfold Obligations.DroppedFlagStays
  intro s t hd hstep
  obtain ⟨_, ⟨_, hturn⟩ | ⟨ev, rest, hev, hx⟩⟩ := step_cases hstep
  · obtain ⟨_, _, hdropped⟩ := controllerTurn_keeps hturn
    exact .inl (hdropped.trans hd)
  · cases ev with
    | access a =>
      rcases busAccess_cmdDropped (s := { s with events := rest }) hd hx with ht | ⟨v, hv, rfl⟩
      · exact .inl ht
      · exact .inr (.inr ⟨v, hv, by rw [hev]; rfl⟩)
    | entropy e =>
      rw [entropyAnswer_frame hx]
      exact .inl hd
    | controller =>
      obtain ⟨_, _, hdropped⟩ := controllerTurn_keeps hx
      exact .inl (hdropped.trans hd)
    | reset asserted =>
      cases hx
      cases asserted with
      | true => exact .inr (.inl (by rw [hev]; rfl))
      | false => exact .inl hd

/-! ## The order of the checks (R255) -/

/-- A rejection's whole effect: no request is asserted, and all but the port and the status update is kept (R131, R240). -/
theorem reject_effect {i : Instr} {s : State} {code : ResultCode} (h : exec i s = .next (reject code s)) :
    ∃ t, exec i s = .next t ∧ t.entReq = false ∧ t.agreesButPort
      { s with err := code, result := rejectResult code, phase := .idle, done := true } :=
  ⟨_, h, rfl, rfl⟩

theorem exec_instantiate_rejects {s : State} {code : ResultCode} (hc : instantiateChecks s = .error code) :
    exec .instantiate s = .next (reject code s) := by
  simp [exec, execInstantiate, hc]

theorem exec_reseed_rejects {s : State} {aip : Bool} {code : ResultCode} (hc : reseedChecks aip s = some code) :
    exec (.reseed aip) s = .next (reject code s) := by
  simp [exec, execReseed, hc]

theorem exec_generate_rejects {s : State} {aip : Bool} {code : ResultCode} (hc : generateChecks aip s = some code)
    (pr : Bool) : exec (.generate pr aip) s = .next (reject code s) := by
  simp [exec, execGenerate, hc]

/-- MECH = 3 names no mechanism (R49). -/
theorem instantiateChecks_of_reserved_mech {s : State} (hl : s.lifecycle = .uninst) (hm : s.mechSel = 3#2) :
    instantiateChecks s = .error .cfgInvalid := by
  simp [instantiateChecks, hl, hm, Mech.ofBits]

/-- INSTANTIATE's checks after those of STATE and MECH, as comparisons of numbers in their order. -/
theorem instantiateChecks_of_mech {s : State} {m : Mech} (hl : s.lifecycle = .uninst) (hm : s.mechSel = m.code) :
    instantiateChecks s =
      if s.cfg.maxStrBytes < s.persLen.toNat ∨ s.cfg.maxStrBytes < s.nonceLen.toNat then .error .inputTooLong
      else if s.cfg.mechMaxStrength < s.secStrength.toNat then .error .cfgStrengthMech
      else if primMax s.cfg m < s.secStrength.toNat then .error .cfgStrengthPrim
      else if s.cfg.entSizeBits.toNat < s.secStrength.toNat then .error .cfgEntropyCapacity
      else .ok m := by
  simp [instantiateChecks, hl, hm, lengthTooLong, strengthMechOK, strengthPrimOK, capacityOK]

/-- Settles O34: each clause is one branch of the checks, and a failing check rejects the command. -/
theorem instantiateCheckOrder : Obligations.InstantiateCheckOrder := by
  unfold Obligations.InstantiateCheckOrder
  intro s rejects
  refine ⟨fun hl => reject_effect (exec_of_not_legalIn (by simpa [legalIn] using hl)),
    fun hl hm => reject_effect (exec_instantiate_rejects (instantiateChecks_of_reserved_mech hl hm)), fun m hl hm => ?_⟩
  have hchecks := instantiateChecks_of_mech hl hm
  refine ⟨fun hlong => reject_effect (exec_instantiate_rejects (hchecks.trans (if_pos hlong))), fun hpers hnonce => ?_⟩
  rw [if_neg (by omega)] at hchecks
  refine ⟨fun hmech => reject_effect (exec_instantiate_rejects (hchecks.trans (if_pos hmech))), fun hmech => ?_⟩
  rw [if_neg hmech.not_gt] at hchecks
  refine ⟨fun hprim => reject_effect (exec_instantiate_rejects (hchecks.trans (if_pos hprim))), fun hprim hcap => ?_⟩
  rw [if_neg hprim.not_gt] at hchecks
  exact reject_effect (exec_instantiate_rejects (hchecks.trans (if_pos hcap)))

/-- RESEED's check after that of STATE. -/
theorem reseedChecks_of_ready {s : State} (hl : s.lifecycle = .ready) (aip : Bool) :
    reseedChecks aip s = if aip = true ∧ s.cfg.maxStrBytes < s.aiLen.toNat then some .inputTooLong else none := by
  simp [reseedChecks, State.isReady, hl, lengthTooLong]

/-- GENERATE's checks after that of STATE, as comparisons of numbers in their order. -/
theorem generateChecks_of_ready {s : State} (hl : s.lifecycle = .ready) (aip : Bool) :
    generateChecks aip s =
      if aip = true ∧ s.cfg.maxStrBytes < s.aiLen.toNat then some .inputTooLong
      else if maxReqBits s.mechL s.tdesL < 8 * s.reqLen.toNat then some .requestTooLarge
      else if reseedMax s.mechL s.tdesL < s.rc.toNat then some .reseedRequired
      else none := by
  have hsize : tooLarge s.mechL s.tdesL s.requestBytes = decide (maxReqBits s.mechL s.tdesL < 8 * s.reqLen.toNat) := rfl
  simp [generateChecks, State.isReady, hl, lengthTooLong, hsize, State.counterPastCeiling, reseedDue]

/-- Both commands check AI_LEN next after STATE. -/
theorem exec_inputTooLong {s : State} {i : Instr} {aip : Bool} (hi : i = .reseed aip ∨ ∃ pr, i = .generate pr aip)
    (hl : s.lifecycle = .ready) (hlong : aip = true ∧ s.cfg.maxStrBytes < s.aiLen.toNat) :
    exec i s = .next (reject .inputTooLong s) := by
  rcases hi with rfl | ⟨pr, rfl⟩
  · exact exec_reseed_rejects ((reseedChecks_of_ready hl aip).trans (if_pos hlong))
  · exact exec_generate_rejects ((generateChecks_of_ready hl aip).trans (if_pos hlong)) pr

/-- Settles O36: each clause is one branch of the checks, and a failing check rejects the command. -/
theorem reseedGenerateCheckOrder : Obligations.ReseedGenerateCheckOrder := by
  unfold Obligations.ReseedGenerateCheckOrder
  intro s i aip hforms rejects
  have hi : i = .reseed aip ∨ ∃ pr, i = .generate pr aip :=
    hforms.imp_right fun h => h.elim (fun h => ⟨false, h⟩) (fun h => ⟨true, h⟩)
  refine ⟨fun hl => ?wrongState, fun hl haip hlong => reject_effect (exec_inputTooLong hi hl ⟨haip, hlong⟩),
    fun hl hlen hne => ?_⟩
  case wrongState =>
    refine reject_effect (exec_of_not_legalIn ?_)
    rcases hi with rfl | ⟨pr, rfl⟩ <;> simpa [legalIn] using hl
  obtain ⟨pr, rfl⟩ := hi.resolve_left hne
  have hchecks := generateChecks_of_ready hl aip
  rw [if_neg fun ⟨haip, hlong⟩ => (hlen haip).not_gt hlong] at hchecks
  refine ⟨fun hreq => reject_effect (exec_generate_rejects (hchecks.trans (if_pos hreq)) pr), fun hreq hrc => ?_⟩
  rw [if_neg hreq.not_gt] at hchecks
  exact reject_effect (exec_generate_rejects (hchecks.trans (if_pos hrc)) pr)

/-! ## Starvation (R243) -/

theorem not_entropyOK_of_lt {e : ByteString} {ss : BitVec 16} (h : 8 * e.length < ss.toNat) : entropyOK e ss = false :=
  Bool.eq_false_iff.mpr fun hok => h.not_ge ((ceilDiv_eight_le_iff _ _).mp ((entropyOK_iff e ss).mp hok))

theorem exec_instantiate_starves {s : State} {m : Mech} {e : ByteString} (hc : instantiateChecks s = .ok m)
    (hd : s.entData = some e) (he : 8 * e.length < s.secStrength.toNat) : exec .instantiate s = .next (starve s) := by
  simp [exec, execInstantiate, hc, hd, not_entropyOK_of_lt he]

theorem exec_reseed_starves {s : State} {aip : Bool} {e : ByteString} (hc : reseedChecks aip s = none)
    (hd : s.entData = some e) (he : 8 * e.length < s.ssL.toNat) : exec (.reseed aip) s = .next (starve s) := by
  simp [exec, execReseed, hc, hd, not_entropyOK_of_lt he]

theorem exec_generate_starves {s : State} {aip : Bool} {e : ByteString} (hc : generateChecks aip s = none)
    (hd : s.entData = some e) (he : 8 * e.length < s.ssL.toNat) : exec (.generate true aip) s = .next (starve s) := by
  simp [exec, execGenerate, hc, hd, not_entropyOK_of_lt he]

theorem starve_of_not_sticky {s : State} (h : s.cfg.fatalSticky = false) :
    starve s = complete .entropyStarvation 0#32 s := by
  simp [starve, starveChanges, h]

theorem starve_of_sticky {s : State} (h : s.cfg.fatalSticky = true) :
    starve s = complete .entropyStarvation 0#32 { zeroize s with lifecycle := .error } := by
  simp [starve, starveChanges, h]

/-- Settles O40: each of the three commands starves, and FATAL_STICKY decides between the status update alone and R44's
zeroization, whose memory is known byte by byte. -/
theorem entropyStarvation : Obligations.EntropyStarvation := by
  unfold Obligations.EntropyStarvation
  intro s i ss e hd hshort hi
  have hexec : exec i s = .next (starve s) := by
    rcases hi with ⟨rfl, rfl, m, hc⟩ | ⟨aip, rfl, rfl, hc⟩ | ⟨aip, rfl, rfl, hc⟩
    · exact exec_instantiate_starves hc hd hshort
    · exact exec_reseed_starves hc hd hshort
    · exact exec_generate_starves hc hd hshort
  refine ⟨_, hexec, fun hf => ?_, fun hf => ?_⟩
  · rw [starve_of_not_sticky hf]
    rfl
  · rw [starve_of_sticky hf]
    exact ⟨rfl, fun a hlo hhi => Memory.read_clearOut s.mem ⟨hlo, hhi⟩, fun a ha => Memory.read_clearOut_outside s.mem ha⟩

end Sys2Proof.Machine

/-! PROOF. The reset input: what its two edges and a late entropy answer do as steps of the machine, and the bus while reset is
held (70_reset_and_hazards.md). -/

namespace Sys2Proof.Machine

/-! ## The reset input (R270, R271) -/

/-- The values of R66 do not depend on what the reset finds: not the phase, and not the inputs it leaves as they are. -/
theorem resetBlock_atResetValues (s : State) : s.resetBlock.atResetValues := reset_atResetValues

/-- An edge of the reset input, as a step of the machine. -/
theorem step_resetEdge {s : State} (hl : s.cfg.legal = true) (asserted : Bool) (rest : List Event) :
    step { s with events := .reset asserted :: rest } = .next (resetEdge asserted { s with events := rest }) :=
  step_of_event (s := { s with events := .reset asserted :: rest }) hl rfl

/-- Settles O6: the assertion resets the block, BUSY or not, the release writes no reset value, and no request is left for the
entropy answer to meet. -/
theorem resetFromAnyState : Obligations.ResetFromAnyState := by
  unfold Obligations.ResetFromAnyState
  intro s e rest hl he
  have hassert : step { s with events := .reset true :: .reset false :: .entropy e :: rest }
      = .next { s.resetBlock with rst := true, events := .reset false :: .entropy e :: rest } :=
    step_resetEdge hl true _
  have hrelease : step { s.resetBlock with rst := true, events := .reset false :: .entropy e :: rest }
      = .next { s.resetBlock with rst := false, events := .entropy e :: rest } :=
    step_resetEdge (s := { s.resetBlock with rst := true }) hl false _
  have hignored : step { s.resetBlock with rst := false, events := .entropy e :: rest }
      = .next { s.resetBlock with rst := false, events := rest } :=
    step_entropy_ignored (s := { s.resetBlock with rst := false, events := .entropy e :: rest }) hl (.inl rfl) he rfl
  refine ⟨{ s.resetBlock with rst := false, events := rest }, ?_, resetBlock_atResetValues s, rfl, rfl, rfl⟩
  rw [run_succ hassert, run_succ hrelease, run_succ hignored]
  rfl

/-! ## The bus while reset is asserted (R270) -/

/-- The block answers an access that it would perform, with 0 to a read, and does nothing else. -/
theorem performAccess_of_held {s : State} (hr : s.rst = true) (off : Nat) (a : BusAccess) :
    ∃ r, performAccess off a s = .next (respond r s) ∧ ∀ addr w, a = .read addr w → r = .readResp false 0#32 := by
  cases a with
  | read addr w => exact ⟨.readResp false 0#32, by simp [performAccess, hr], fun _ _ _ => rfl⟩
  | write addr w v => exact ⟨.writeResp false, by simp [performAccess, hr], fun _ _ h => by cases h⟩

/-- Settles O7: an access of a wrong shape gets the ERROR response, any other is answered as reset has it. -/
theorem accessesWhileResetHeld : Obligations.AccessesWhileResetHeld := by
  unfold Obligations.AccessesWhileResetHeld
  intro s a hr hspace
  rcases busAccess_cases a s with ⟨hout, _⟩ | ⟨_, _, hx⟩ | ⟨_, _, hx⟩
  · rw [hspace] at hout
    cases hout
  · refine ⟨_, hx, rfl, ?_⟩
    rintro addr w rfl
    exact ⟨true, rfl⟩
  · obtain ⟨r, hanswer, hread⟩ := performAccess_of_held hr (a.addr - s.cfg.drbgBase) a
    refine ⟨_, hx.trans hanswer, rfl, fun addr w ha => ⟨false, ?_⟩⟩
    rw [respond_busResp, hread addr w ha]

end Sys2Proof.Machine

/-! PROOF. The words of the specification's encoding table (95_test_vectors.md section 2.2). -/

namespace Sys2Proof.Machine

/-- A word decodes to the command whose encoding is left when the bits that the command ignores are cleared (R94). -/
theorem decode_of_and_usedBits {w : Word} {i : Instr} (h : w &&& i.usedBits = encode i) : decode w = i :=
  (decodeIffUsedBitsMatch i w).mpr h

/-- Settles O4: each word is its command's encoding with ignored bits set (PR and AIP of NOP and INSTANTIATE, PR of RESEED,
bits 4 to 7 and 10 to 31 of any), or the encoding itself. -/
theorem specWordsDecode : Obligations.SpecWordsDecode := by
  unfold Obligations.SpecWordsDecode
  refine ⟨?_, ?_, ?_, ?_, ?_, ?_, ?_, ?_, ?_, ?_⟩ <;>
    exact decode_of_and_usedBits (by decide)

end Sys2Proof.Machine
